-- ==== Sys2Proof/Word.lean ====
section
/-! DEFINITION. The word types of the part: host half-words, array words, addresses, blocks. -/

namespace Sys2Proof

/-- A 32-bit data word (00_scope.md, Terms). -/
abbrev Word := BitVec 32
/-- A 16-bit half-word, also the width of every register of the window. -/
abbrev Half := BitVec 16
/-- A word address, logical or physical: block × 256 + offset (R16). -/
abbrev Addr := BitVec 20
/-- A block number, logical or physical (R16). -/
abbrev Block := BitVec 12
/-- An offset within a block (R16). -/
abbrev Offset := BitVec 8
/-- The 7 check bits of a codeword (chapter 1). -/
abbrev Check := BitVec 7
/-- The 8 side bits of a codeword as DIAG shows them: tag, then check bits 6-0 (R201). -/
abbrev Side := BitVec 8

end Sys2Proof
end

