-- ==== Sys2Proof/Syntax.lean ====
section
/-! DEFINITION. The commands of the part: one constructor per row of spec/opcode_table.json. -/

namespace Sys2Proof

/-- The three registers read in two parts (R193). -/
inductive PairedReg where
  | geometry | migrationStatus | spareSummary
  deriving DecidableEq, Repr

/-- A command: a host bus cycle, a pin event, a completion or a timer event. `n` is a channel, `v` the value of
a write cycle, `a` a register address. The docstrings name the row's rule. -/
inductive Instr where
  /-- POWER_ON (R171): the straps and the levels of nRESET and nPFAIL (true is high) as power comes up. -/
  | powerOn (asz : BitVec 2) (nReset nPfail : Bool)
  /-- NRESET_ASSERT (R171). -/
  | nresetAssert
  /-- NRESET_RELEASE (R171), with the straps at that moment. -/
  | nresetRelease (asz : BitVec 2)
  /-- NPFAIL_ASSERT (R101). -/
  | npfailAssert
  /-- ENTER_FENCED (R172). -/
  | enterFenced
  /-- NPFAIL_RELEASE (R173), with the straps at that moment. -/
  | npfailRelease (asz : BitVec 2)
  /-- CHANNEL_SETTINGS_LOAD (R58): a CTRL write with OPEN clear. -/
  | channelSettingsLoad (n : Fin 4) (v : Half)
  /-- CHANNEL_OPEN (R59): a CTRL write with OPEN set. -/
  | channelOpen (n : Fin 4) (v : Half)
  /-- CHANNEL_CLOSE (R76): a CTRL write with OPEN clear. -/
  | channelClose (n : Fin 4) (v : Half)
  /-- RESUME_RETRY (R75): a CTRL write with OPEN set and RESUME 1. -/
  | resumeRetry (n : Fin 4) (v : Half)
  /-- RESUME_SKIP (R75): a CTRL write with OPEN set and RESUME 2. -/
  | resumeSkip (n : Fin 4) (v : Half)
  /-- POINTER_WRITE (R61): a PTR_LO write. -/
  | pointerWrite (n : Fin 4) (v : Half)
  /-- DATA_LO_READ (R65). -/
  | dataLoRead (n : Fin 4)
  /-- DATA_HI_READ (R66). -/
  | dataHiRead (n : Fin 4)
  /-- DATA_LO_WRITE (R68). -/
  | dataLoWrite (n : Fin 4) (v : Half)
  /-- DATA_HI_WRITE (R68). -/
  | dataHiWrite (n : Fin 4) (v : Half)
  /-- STATUS_WRITE (R194). -/
  | statusWrite (n : Fin 4) (v : Half)
  /-- HELD_CYCLE_END (R70). -/
  | heldCycleEnd
  /-- WAIT_LIMIT_EXPIRY (R71). -/
  | waitLimitExpiry
  /-- DRAIN_COMPLETE (R73). -/
  | drainComplete (n : Fin 4)
  /-- FORMAT (R177). -/
  | format
  /-- REMOUNT (R182). -/
  | remount
  /-- COMMIT (R183). -/
  | commit
  /-- SPARE_BLOCK (R184). -/
  | spareBlock
  /-- CANCEL_SPARE (R185). -/
  | cancelSpare
  /-- SCRUB_RANGE (R186). -/
  | scrubRange
  /-- CLEAR_FAULTS (R187). -/
  | clearFaults
  /-- SOFT_RESET (R188). -/
  | softReset
  /-- UNDEFINED_COMMAND (R197): a COMMAND write whose value names no command. -/
  | undefinedCommand (v : Half)
  /-- COMMAND_COMPLETION (R176). -/
  | commandCompletion
  /-- COMMAND_STATUS_WRITE (R174). -/
  | commandStatusWrite (v : Half)
  /-- IRQ_PENDING_WRITE (R166). -/
  | irqPendingWrite (v : Half)
  /-- IRQ_ENABLE_WRITE (R167). -/
  | irqEnableWrite (v : Half)
  /-- EVENT_POP (R164). -/
  | eventPop (v : Half)
  /-- TABLE_SELECT_WRITE (R195). -/
  | tableSelectWrite (v : Half)
  /-- PAIRED_READ (R193). -/
  | pairedRead (r : PairedReg)
  /-- SCRUB_CTRL_WRITE (R118). -/
  | scrubCtrlWrite (v : Half)
  /-- SCRUB_PERIOD_WRITE (R108). -/
  | scrubPeriodWrite (v : Half)
  /-- SCRUB_STATUS_WRITE (R111). -/
  | scrubStatusWrite (v : Half)
  /-- REGISTER_WRITE (R190): a write to a register with no row of its own. -/
  | registerWrite (a : BitVec 6) (v : Half)
  /-- SCRUB_TIMER_EXPIRY (R109). -/
  | scrubTimerExpiry
  /-- GRANT_DECISION (R90). -/
  | grantDecision
  /-- FETCH_COMPLETE (R63). -/
  | fetchComplete
  /-- WORD_WRITE_DONE (R73). -/
  | wordWriteDone
  /-- RAW_WRITE_DONE (R11). -/
  | rawWriteDone
  /-- MERGE_DONE (R8). -/
  | mergeDone
  /-- COPY_DONE (R144). -/
  | copyDone
  /-- VERIFY_READ_DONE (R147). -/
  | verifyReadDone
  /-- SCRUB_WORD_DONE (R113). -/
  | scrubWordDone
  /-- MOUNT_READ_DONE (R36). -/
  | mountReadDone
  /-- COMMIT_WRITE_DONE (R45). -/
  | commitWriteDone
  /-- COMMIT_READBACK_DONE (R46). -/
  | commitReadbackDone
  /-- CLOSING_WRITE_DONE (R47). -/
  | closingWriteDone
  /-- COMMIT_START (R43). -/
  | commitStart
  /-- MIGRATION_START (R142). -/
  | migrationStart
  /-- MIGRATION_COMPLETE (R151). -/
  | migrationComplete
  /-- FILL_DONE (R179). -/
  | fillDone
  /-- FORMAT_COPY_GRANT_DONE (R53). -/
  | formatCopyGrantDone
  /-- CELL_DECAY (R3): the location and the MD line (0 to 39) of the bit that flips. -/
  | cellDecay (a : Addr) (bit : BitVec 6)
  /-- REGISTER_READ (R193): a read of a register with no read row of its own. -/
  | registerRead (a : BitVec 6)
  deriving DecidableEq, Repr

end Sys2Proof
end

