-- ==== Sys2Proof/WellFormed.lean ====
section
/-! DEFINITION. Which operands a row of the table stands for. A bus cycle outside its row's operands still acts by
the rule of its register (Machine/Bus.lean): the checks say which row names it. -/

namespace Sys2Proof

/-- The OPEN bit of a CTRL value (R196). -/
def ctrlOpenBit (v : Half) : Bool := v.getLsbD 8
/-- The RESUME field of a CTRL value (R196). -/
def ctrlResumeBits (v : Half) : BitVec 2 := v.extractLsb' 9 2

/-- The command codes of the COMMAND row of the register map (R190 and the map below it). -/
def commandCodes : List Half := [0x21, 0x22, 0x31, 0x41, 0x42, 0x51, 0x61, 0x7E]

/-- Whether a register's writes have a row of their own: COMMAND, COMMAND_STATUS, IRQ_PENDING, IRQ_ENABLE,
EVENT_POP, a channel's CTRL, STATUS, PTR_LO, DATA_LO, DATA_HI, the three scrub registers and TABLE_SELECT. -/
def writeHasRow (a : BitVec 6) : Bool :=
  a == 0x02 || a == 0x05 || a == 0x06 || a == 0x07 || a == 0x0C || a == 0x30 || a == 0x31 || a == 0x32 || a == 0x39 ||
  ((a.extractLsb' 3 3).toNat ≥ 2 && (a.extractLsb' 3 3).toNat < 6 &&
    ((a.extractLsb' 0 3).toNat < 3 || (a.extractLsb' 0 3).toNat ≥ 6))

/-- Whether a register's reads have a row of their own: the paired registers and the data registers (R193, R65). -/
def readHasRow (a : BitVec 6) : Bool :=
  a == 0x0E || a == 0x37 || a == 0x38 ||
  ((a.extractLsb' 3 3).toNat ≥ 2 && (a.extractLsb' 3 3).toNat < 6 && (a.extractLsb' 0 3).toNat ≥ 6)

/-- The operands for which a row names its command. -/
def Instr.wellFormed : Instr → Bool
  | .channelSettingsLoad _ v => !ctrlOpenBit v
  | .channelClose _ v => !ctrlOpenBit v
  | .channelOpen _ v => ctrlOpenBit v
  | .resumeRetry _ v => ctrlOpenBit v && ctrlResumeBits v == 1
  | .resumeSkip _ v => ctrlOpenBit v && ctrlResumeBits v == 2
  | .undefinedCommand v => !commandCodes.contains v
  | .registerWrite a _ => !writeHasRow a
  | .registerRead a => !readHasRow a
  | .cellDecay _ bit => bit.toNat < 40
  | .powerOn _ _ _ | .nresetAssert | .nresetRelease _ | .npfailAssert | .enterFenced
  | .npfailRelease _ | .pointerWrite _ _ | .dataLoRead _ | .dataHiRead _ | .dataLoWrite _ _
  | .dataHiWrite _ _ | .statusWrite _ _ | .heldCycleEnd | .waitLimitExpiry | .drainComplete _
  | .format | .remount | .commit | .spareBlock | .cancelSpare
  | .scrubRange | .clearFaults | .softReset | .commandCompletion | .commandStatusWrite _
  | .irqPendingWrite _ | .irqEnableWrite _ | .eventPop _ | .tableSelectWrite _ | .pairedRead _
  | .scrubCtrlWrite _ | .scrubPeriodWrite _ | .scrubStatusWrite _ | .scrubTimerExpiry | .grantDecision
  | .fetchComplete | .wordWriteDone | .rawWriteDone | .mergeDone | .copyDone
  | .verifyReadDone | .scrubWordDone | .mountReadDone | .commitWriteDone | .commitReadbackDone
  | .closingWriteDone | .commitStart | .migrationStart | .migrationComplete | .fillDone
  | .formatCopyGrantDone => true

end Sys2Proof
end

