-- ==== Sys2Proof/Config.lean ====
section
/-! DEFINITION. What the manual leaves open, as constants without a body: a statement holds for every value of them. -/

namespace Sys2Proof

/-- FREE VALUE (log 5). The signatures the check matrix gives the data bits 0 to 31. The manual does not give
the check matrix (chapter 1); `Machine.dataSignature` holds it to the laws of R3. -/
opaque Config.checkColumns : Nat → Check

/-- FREE VALUE (log 8). For the k-th time two blocks post in one event and no rule orders their records
(R160, R176): whether the first block's records join first. -/
opaque Config.eitherOrder : Nat → Bool

/-- FREE VALUE (log 9). Where a step leads from an address at the edge of the 20-bit range that is not the
far edge of the window; the manual states no result there (R56, R75). -/
opaque Config.steppedPastRange : Addr → Addr

end Sys2Proof
end

