-- ==== Sys2Proof/Machine/State.lean ====
section
/-! DEFINITION. The state of the part as plain data, block by block, and its value at reset. -/

namespace Sys2Proof.Machine

/-! ### Stored words (chapter 1) -/

/-- A 40-bit codeword: 32 data bits, the tag, 7 check bits (R1, R201). -/
structure Codeword where
  data : Word
  tag : Bool
  check : Check
  deriving DecidableEq, Repr

/-- The four classifications (R4). -/
inductive Classification where
  | clean | corrected | uncorrectable | poisoned
  deriving DecidableEq, Repr

/-- The four parts of a decode result (R5). -/
structure DecodeResult where
  cls : Classification
  correctedFlag : Bool
  data : Word
  tag : Bool
  deriving DecidableEq, Repr

/-- One access the port drives on the array: MA, and MD for a write (R99). -/
inductive ArrayAccess where
  | read (a : Addr)
  | write (a : Addr) (c : Codeword)
  deriving DecidableEq, Repr

/-- The array: (address, codeword) pairs; an unlisted location holds `blank` (Machine/Ops.lean). -/
abbrev CellArray := List (Nat × Codeword)

/-! ### Block map (chapter 2) -/

/-- A remap entry: the logical block lives in the spare (R17). -/
structure RemapEntry where
  logical : Block
  spare : Nat
  deriving DecidableEq, Repr

/-- The four spare states (R18). -/
inductive SpareState where
  | free | allocated | inUse | condemned
  deriving DecidableEq, Repr

/-- The block map (R14, R17, R18). S is the length of `spares` (index k below S is entry k); the occupied slots
of the remap table are 0 … N−1 (R17, R32), so the table is the list of its entries in slot order. -/
structure BlockMap where
  loaded : Bool
  spares : List SpareState
  remap : List RemapEntry
  deriving DecidableEq, Repr

/-! ### Directory (chapter 3) -/

/-- The two directory copies (R32). -/
inductive Copy where
  | a | b
  deriving DecidableEq, Repr

/-- What the commit unit knows of a copy (R41). -/
structure CopyKnown where
  valid : Bool
  gen : Word
  deriving DecidableEq, Repr

/-- The content of a directory copy (R32) as a commit writes it, and the attempt identity of the migration it
includes (R44). -/
structure Snapshot where
  gen : Word
  blocks : Nat
  entries : List RemapEntry
  spares : List SpareState
  included : Option Nat
  deriving DecidableEq, Repr

/-- Commit state (R41). -/
inductive CommitState where
  | idle | writing | readback
  deriving DecidableEq, Repr

/-- The directory commit unit (R41). `closing` marks that word 255 has passed and the closing write remains (R45). -/
structure CommitUnit where
  state : CommitState
  pendingFlag : Bool
  attempt : Nat
  gen : Word
  copyA : CopyKnown
  copyB : CopyKnown
  target : Option Copy
  snapshot : Option Snapshot
  word : BitVec 8
  closing : Bool
  deriving DecidableEq, Repr

/-- The tests of one copy as its words arrive (R36): T1 so far, the running sum, words 0 … 67. -/
structure CopyFold where
  allGood : Bool
  sum : Word
  words : List Word
  deriving DecidableEq, Repr

/-- The mount reader (R35, R36). `word` runs over copy A (0 … 255), then copy B (256 … 511). -/
structure MountReader where
  running : Bool
  word : BitVec 9
  foldA : CopyFold
  foldB : CopyFold
  holds : Bool
  deriving DecidableEq, Repr

/-- The verdicts on a copy (R34). -/
inductive Verdict where
  | valid | foreign | invalid
  deriving DecidableEq, Repr

/-- The stages of the format filler (R179). -/
inductive FillStage where
  | zero | fill | copyA | copyB
  deriving DecidableEq, Repr

/-- Where an attempt on a copy stands (R45). -/
inductive AttemptPhase where
  | writing | readback | closing
  deriving DecidableEq, Repr

/-- The format filler (R179): stage, fill address, attempt count, which copies are written. -/
structure Filler where
  stage : FillStage
  addr : Addr
  word : BitVec 8
  phase : AttemptPhase
  attempt : Nat
  wroteA : Bool
  wroteB : Bool
  deriving DecidableEq, Repr

/-! ### Channels (chapter 4) -/

/-- Channel modes (R55). -/
inductive ChanMode where
  | read | write | rawRead | rawWrite
  deriving DecidableEq, Repr

/-- Channel widths (R55). -/
inductive ChanWidth where
  | word | halfLow | halfHigh
  deriving DecidableEq, Repr

/-- Step +1 or −1 (R55). -/
inductive ChanStep where
  | up | down
  deriving DecidableEq, Repr

/-- End policy (R55). -/
inductive EndPolicy where
  | stop | wrap
  deriving DecidableEq, Repr

/-- Channel states CLOSED, OPEN, DRAINING, END, FAULT (R55). -/
inductive ChanState where
  | closed | opened | draining | ended | faulted
  deriving DecidableEq, Repr

/-- Fault kinds (R55). -/
inductive FaultKind where
  | noFault | uncorrectable | poisoned | mergeRefused | waitExpired | pointerOutside
  deriving DecidableEq, Repr

/-- Reasons of a refused open (R59). -/
inductive RefuseReason where
  | notClosed | rawDisabled | deviceState | window | pointer
  deriving DecidableEq, Repr

/-- The fault mark of a read-ahead entry (R55). -/
inductive ReadMark where
  | uncorrectable | poisoned
  deriving DecidableEq, Repr

/-- A read-ahead entry (R55). -/
structure ReadEntry where
  addr : Addr
  data : Word
  side : Option Side
  mark : Option ReadMark
  phys : Option Block
  deriving DecidableEq, Repr

/-- Kind and value of a write-queue entry (R55). -/
inductive WriteValue where
  | word (v : Word)
  | halfLow (v : Half)
  | halfHigh (v : Half)
  | raw (v : Word) (side : Side)
  deriving DecidableEq, Repr

/-- A write-queue entry with its acceptance position (R55, R77). -/
structure WriteEntry where
  addr : Addr
  value : WriteValue
  pos : Nat
  deriving DecidableEq, Repr

/-- The pointer view (R194). -/
inductive PointerView where
  | pointer | faultAddress
  deriving DecidableEq, Repr

/-- A channel's context (R55). `fetchPtr` is `none` when exhausted; `openRefused` holds OPEN_REFUSED with its
reason (R83); `holds` says that the grant in progress still serves this channel (R63, R73, R98). -/
structure Channel where
  mode : ChanMode
  width : ChanWidth
  step : ChanStep
  policy : EndPolicy
  winFirst : Block
  winLast : Block
  pointer : Addr
  ptrHigh : BitVec 4
  fetchPtr : Option Addr
  readAhead : List ReadEntry
  writeQ : List WriteEntry
  staging : Half
  state : ChanState
  faultKind : FaultKind
  faultAddr : Addr
  writeIgnored : Bool
  openRefused : Option RefuseReason
  view : PointerView
  holds : Bool
  deriving DecidableEq, Repr

/-! ### Memory port (chapter 5) -/

/-- A mirror address and the migration attempt it belongs to (R26, R146). -/
structure Mirror where
  addr : Addr
  attempt : Nat
  deriving DecidableEq, Repr

/-- The grant in progress, with what R87 says it carries, fixed at its beginning. -/
inductive Grant where
  /-- WORD_READ for channel n: logical address, primary address. -/
  | wordRead (n : Fin 4) (logical prim : Addr)
  /-- RAW_READ for channel n. -/
  | rawRead (n : Fin 4) (phys : Addr)
  /-- WORD_WRITE for channel n: primary address, mirror, codeword. -/
  | wordWrite (n : Fin 4) (prim : Addr) (mirror : Option Mirror) (c : Codeword)
  /-- MERGE for channel n: logical and primary address, mirror, which half (true: HALF_HIGH), half-word. -/
  | merge (n : Fin 4) (logical prim : Addr) (mirror : Option Mirror) (high : Bool) (v : Half)
  /-- RAW_WRITE for channel n. -/
  | rawWrite (n : Fin 4) (phys : Addr) (c : Codeword)
  /-- COPY: source word, spare word, attempt. -/
  | copy (src dst : Addr) (attempt : Nat)
  /-- VERIFY read of the spare word, attempt. -/
  | verify (phys : Addr) (attempt : Nat)
  /-- SCRUB_WORD: address, POISON_ON_SCRUB at the beginning, whether for a range run. -/
  | scrub (phys : Addr) (poison range : Bool)
  /-- WORD_READ of the mount reader. -/
  | mountRead (phys : Addr)
  /-- WORD_WRITE of a directory word by the commit unit. -/
  | dirWrite (phys : Addr) (c : Codeword)
  /-- Readback WORD_READ of the commit unit. -/
  | dirRead (phys : Addr)
  /-- The closing write of the commit unit. -/
  | dirClose (phys : Addr) (c : Codeword)
  /-- FILL. -/
  | fill (phys : Addr)
  /-- WORD_WRITE of the format filler (stage ZERO, a directory word, a closing write). -/
  | fillerWrite (phys : Addr) (c : Codeword)
  /-- Readback WORD_READ of the format filler. -/
  | fillerRead (phys : Addr)
  deriving DecidableEq, Repr

/-- The requester classes (R90). -/
inductive GrantClass where
  | exclusive | commit | scrubUrgent | host | migrate | scrubIdle
  deriving DecidableEq, Repr

/-- The memory port (R90 to R92, R101). `cls` is the class of the grant in progress, as read at its decision (R87,
R90); `accesses` lists the array accesses of the grant last completed (R88). -/
structure Port where
  rr : Fin 4
  aging : Nat
  grant : Option Grant
  cls : Option GrantClass
  stopped : Bool
  accesses : List ArrayAccess
  deriving DecidableEq, Repr

/-! ### Scrub engine (chapter 6) -/

/-- A range run (R104). -/
structure RangeRun where
  first : Block
  last : Block
  cursor : Addr
  deriving DecidableEq, Repr

/-- The scrub engine (R104). -/
structure Scrub where
  block : Block
  slice : BitVec 4
  word : BitVec 4
  backlog : BitVec 4
  urgent : Bool
  inLag : Bool
  ticks : Half
  passes : Half
  lagCount : Half
  poisonedSeen : Half
  range : Option RangeRun
  enable : Bool
  poisonOnScrub : Bool
  passEvent : Bool
  period : Half
  urgentLevel : BitVec 4
  holds : Bool
  deriving DecidableEq, Repr

/-! ### Fault table (chapter 7) -/

/-- Record states (R122). -/
inductive FaultState where
  | observed | queued | migrating | retired | unspareable
  deriving DecidableEq, Repr

/-- Sources of event records and of reports (R159, R122). -/
inductive Source where
  | hostCh0 | hostCh1 | hostCh2 | hostCh3 | scrub | migrate | commit | mount | command | device
  deriving DecidableEq, Repr

/-- A fault record (R122). -/
structure FaultRecord where
  phys : Block
  logical : Option Block
  corrected : BitVec 8
  uncorrectable : BitVec 4
  lastOffset : Offset
  lastSource : Source
  state : FaultState
  deriving DecidableEq, Repr

/-- The fault table (R122, R127). `order` lists the physical blocks of the records from least to most recently
updated; `full` is the untracked condition. -/
structure FaultTable where
  slots : Vector (Option FaultRecord) 32
  order : List Block
  untracked : Half
  full : Bool
  deriving DecidableEq, Repr

/-- The fields of SPARE_CTRL (R134, R47). -/
structure SpareCtrl where
  threshold : BitVec 8
  autoUncorrectable : Bool
  reportCorrected : Bool
  commitDoneEvent : Bool
  deriving DecidableEq, Repr

/-! ### Migration engine (chapter 8) -/

/-- Origin of a migration request (R138). -/
inductive Origin where
  | auto | host
  deriving DecidableEq, Repr

/-- An entry of the request queue (R138). -/
structure MigRequest where
  block : Block
  origin : Origin
  deriving DecidableEq, Repr

/-- Engine states other than IDLE (R137). -/
inductive MigPhase where
  | copy | verify | commitWait
  deriving DecidableEq, Repr

/-- The migration in flight (R137). -/
structure Migration where
  phase : MigPhase
  lam : Block
  source : Block
  spare : Nat
  cursor : Nat
  poison : BitVec 256
  attempt : Nat
  ident : Nat
  deriving DecidableEq, Repr

/-- The migration engine (R137); IDLE is `flight = none`. -/
structure MigEngine where
  queue : List MigRequest
  flight : Option Migration
  nextId : Nat
  deriving DecidableEq, Repr

/-! ### Events and interrupts (chapter 9) -/

/-- Event kinds (R159, codes R198). -/
inductive EventKind where
  | corrected | uncorrectable | poisonRead | spareCondemned | migrationRetry | migrationAbandoned | migrationDone
  | commitDone | commitFailed | mountDone | scrubPass | scrubLag | faultTableFull | commandDone | eventsLost
  deriving DecidableEq, Repr

/-- An event record (R159). -/
structure EventRecord where
  kind : EventKind
  source : Source
  phys : Option Block
  logical : Option Block
  offset : Option Offset
  detail : Half
  deriving DecidableEq, Repr

/-- The event queue and its lost count (R162). -/
structure Events where
  queue : List EventRecord
  lost : BitVec 8
  deriving DecidableEq, Repr

/-- IRQ_ENABLE and the sticky CMD_DONE (R166, R167). -/
structure Irq where
  enable : BitVec 7
  cmdDone : Bool
  deriving DecidableEq, Repr

/-! ### Device and commands (chapter 10) -/

/-- Device states (R170). -/
inductive DevState where
  | mounting | unformatted | foreign | formatting | ready | fenced
  deriving DecidableEq, Repr

/-- Mount outcomes (R37). -/
inductive MountOutcome where
  | unformatted | mounted | mountedSingle | foreign
  deriving DecidableEq, Repr

/-- The device state machine (R170, R171). -/
structure Device where
  state : DevState
  outcome : MountOutcome
  dirReadonly : Bool
  inReset : Bool
  deriving DecidableEq, Repr

/-- The pins nRESET, nPFAIL (true is high) and the straps (R13, R171, R172). -/
structure Pins where
  nReset : Bool
  nPfail : Bool
  asz : BitVec 2
  deriving DecidableEq, Repr

/-- DIAG (R12). -/
structure Diag where
  rawEnable : Bool
  side : Side
  deriving DecidableEq, Repr

/-- Result codes (R176, R198). -/
inductive Result where
  | ok | okDegraded | badArg | notReady | active | noSpare | queueFull | duplicate | tooLate | notFound
  | dirReadonly | dirFail | aborted
  deriving DecidableEq, Repr

/-- Reasons of an abandonment (R140). -/
inductive AbandonReason where
  | noSpare | retries | commitFailed | cancelled
  deriving DecidableEq, Repr

/-- The commands a COMMAND write can name (register map). -/
inductive Command where
  | format | remount | commit | spareBlock | cancelSpare | scrubRange | clearFaults | softReset
  deriving DecidableEq, Repr

/-- The command in progress with its arguments (R174). `commit next`: COMMIT waits for the commit in progress, or,
with `next` set, for the one its pending flag starts (R183). -/
inductive Running where
  | format (arg : Half)
  | remount
  | commit (next : Bool)
  | scrubRange (first last : Half)
  deriving DecidableEq, Repr

/-- The command engine (R174); Busy is `running ≠ none`. -/
structure CommandEngine where
  field : BitVec 8
  result : Result
  refused : Bool
  arg0 : Half
  arg1 : Half
  running : Option Running
  deriving DecidableEq, Repr

/-! ### Host port (chapter 11) -/

/-- The held-cycle record (R191): channel, register (`high`: DATA_HI), the value for a write, the ticks since the
hold began. -/
structure HeldCycle where
  chan : Fin 4
  high : Bool
  write : Option Half
  ticks : Nat
  deriving DecidableEq, Repr

/-- The paired-read latch: the register and both parts of its snapshot (R193). -/
structure Latch where
  reg : PairedReg
  part1 : Half
  part2 : Half
  deriving DecidableEq, Repr

/-- The host port (R190, R191, R193). -/
structure HostPort where
  held : Option HeldCycle
  latch : Option Latch
  readData : Half
  deriving DecidableEq, Repr

/-- TABLE_DATA0-3 (R195). -/
structure TableCopy where
  w0 : Half
  w1 : Half
  w2 : Half
  w3 : Half
  deriving DecidableEq, Repr

/-- The table port (R195). -/
structure TablePort where
  table : BitVec 2
  index : BitVec 5
  copy : TableCopy
  deriving DecidableEq, Repr

/-- The whole part. `choices` counts the free choices of an order already taken (log 8); `nextPos` numbers
acceptances (R77); `pending` is the queue of commands. -/
structure State where
  pins : Pins
  pCode : BitVec 2
  array : CellArray
  map : BlockMap
  dir : CommitUnit
  mount : MountReader
  filler : Option Filler
  chans : Vector Channel 4
  nextPos : Nat
  port : Port
  scrub : Scrub
  faults : FaultTable
  spareCtrl : SpareCtrl
  mig : MigEngine
  events : Events
  irq : Irq
  dev : Device
  diag : Diag
  cmd : CommandEngine
  host : HostPort
  table : TablePort
  choices : Nat
  pending : List Instr
  deriving DecidableEq, Repr

/-- No event of the part stops it: an error is state (a channel's FAULT, DIR_READONLY, a result, a record). No
meaning faults; there is no constructor. -/
inductive Fault where
  deriving DecidableEq, Repr

/-- Why a command has no meaning. -/
inductive Refusal where
  /-- Raised only by an arm of `exec` whose command is not modelled yet. Safe. -/
  | notModelled (mnemonic : String)
  deriving DecidableEq, Repr

/-! ### Reset values, as each chapter's table gives them -/

/-- R30: no directory loaded. -/
def BlockMap.empty : BlockMap := { loaded := false, spares := [], remap := [] }

/-- R41. -/
def CommitUnit.reset : CommitUnit :=
  { state := .idle, pendingFlag := false, attempt := 1, gen := 0, copyA := ⟨false, 0⟩, copyB := ⟨false, 0⟩,
    target := none, snapshot := none, word := 0, closing := false }

/-- No word of a copy read yet (R35). -/
def CopyFold.start : CopyFold := { allGood := true, sum := 0, words := [] }

/-- R35: the working state at the start of a mount. -/
def MountReader.start : MountReader :=
  { running := true, word := 0, foldA := CopyFold.start, foldB := CopyFold.start, holds := false }

/-- The reader while no mount runs. -/
def MountReader.idle : MountReader := { MountReader.start with running := false }

/-- R85, R194. -/
def Channel.reset : Channel :=
  { mode := .read, width := .word, step := .up, policy := .stop, winFirst := 0, winLast := 0, pointer := 0,
    ptrHigh := 0, fetchPtr := some 0, readAhead := [], writeQ := [], staging := 0, state := .closed,
    faultKind := .noFault, faultAddr := 0, writeIgnored := false, openRefused := none, view := .pointer,
    holds := false }

/-- R100, R103. -/
def Port.reset : Port := { rr := 0, aging := 0, grant := none, cls := none, stopped := false, accesses := [] }

/-- R120. -/
def Scrub.reset : Scrub :=
  { block := 0, slice := 0, word := 0, backlog := 0, urgent := false, inLag := false, ticks := 0, passes := 0,
    lagCount := 0, poisonedSeen := 0, range := none, enable := true, poisonOnScrub := true, passEvent := false,
    period := 156, urgentLevel := 12, holds := false }

/-- R136. -/
def FaultTable.empty : FaultTable :=
  { slots := Vector.replicate 32 none, order := [], untracked := 0, full := false }

/-- R134, R47. -/
def SpareCtrl.reset : SpareCtrl :=
  { threshold := 8, autoUncorrectable := true, reportCorrected := false, commitDoneEvent := false }

/-- R156. -/
def MigEngine.reset : MigEngine := { queue := [], flight := none, nextId := 0 }

/-- R169. -/
def Events.empty : Events := { queue := [], lost := 0 }

/-- R169. -/
def Irq.reset : Irq := { enable := 0, cmdDone := false }

/-- R170, in the reset condition (R171). -/
def Device.reset : Device := { state := .mounting, outcome := .unformatted, dirReadonly := false, inReset := true }

/-- R12. -/
def Diag.reset : Diag := { rawEnable := false, side := 0 }

/-- R174. -/
def CommandEngine.reset : CommandEngine :=
  { field := 0, result := .ok, refused := false, arg0 := 0, arg1 := 0, running := none }

/-- R191, R193; the last read value is the model's (log 11). -/
def HostPort.reset : HostPort := { held := none, latch := none, readData := 0 }

/-- R200: the empty mark. -/
def TableCopy.empty : TableCopy := ⟨0, 0, 0, 0⟩

/-- R195. -/
def TablePort.reset : TablePort := { table := 0, index := 0, copy := TableCopy.empty }

/-- The part right after power-on with nRESET and nPFAIL high and the straps at 00 (log 7): every block at its
power-on value, the reset condition left, the mount that follows just started (R171, R35). -/
def State.reset : State :=
  { pins := { nReset := true, nPfail := true, asz := 0 }
    pCode := 0
    array := []
    map := BlockMap.empty
    dir := CommitUnit.reset
    mount := MountReader.start
    filler := none
    chans := Vector.replicate 4 Channel.reset
    nextPos := 0
    port := Port.reset
    scrub := Scrub.reset
    faults := FaultTable.empty
    spareCtrl := SpareCtrl.reset
    mig := MigEngine.reset
    events := Events.empty
    irq := Irq.reset
    dev := { Device.reset with inReset := false }
    diag := Diag.reset
    cmd := CommandEngine.reset
    host := HostPort.reset
    table := TablePort.reset
    choices := 0
    pending := [] }

end Sys2Proof.Machine
end

