-- ==== Sys2Proof/Machine/Code.lean ====
section
/-! DEFINITION. The check code: encoder, syndrome, decoder, and the forms a codeword is written in (chapter 1). -/

namespace Sys2Proof.Machine

/-- DEDUCED (log 5): the signature of the tag. R201 gives the poisoned form check bits 0x35 and R1 gives data 0,
tag 0 check bits 0, so a flipped tag shows syndrome 0x35. -/
def tagSignature : Check := 0x35

/-- The signature of check bit j: only that bit of the comparison differs (R3). -/
def checkSignature (j : Nat) : Check := 1#7 <<< j

/-- The 40 signatures in the order of the MD lines (R201), for given signatures of the data bits. -/
def signaturesOf (cols : Nat → Check) : List Check :=
  (List.range 32).map cols ++ tagSignature :: (List.range 7).map checkSignature

/-- R3: the 40 signatures are non-zero and distinct, and the syndrome of two flipped bits is the signature of no
position. -/
def lawfulColumns (cols : Nat → Check) : Bool :=
  let l := signaturesOf cols
  decide l.Nodup && !l.contains 0 && decide (l.Pairwise fun x y => !l.contains (x ^^^ y))

/-- One set of data signatures that obeys R3, to show that the laws can be met; taken only where the free value
does not obey them. -/
def sampleColumns (i : Nat) : Check :=
  ([11, 14, 23, 26, 29, 39, 42, 45, 51, 54, 57, 60, 63, 67, 70, 73, 74, 76, 82, 85, 88, 95, 98, 101, 104, 111, 113,
    116, 119, 123, 125, 126] : List Check).getD i 0

/-- The signature of data bit i: the free value, held to the laws of R3 (log 5). -/
def dataSignature (i : Nat) : Check :=
  if lawfulColumns Config.checkColumns then Config.checkColumns i else sampleColumns i

/-- The signature of MD line i (R3, R201): data 0 … 31, tag 32, check bits 33 … 39. -/
def signatureAt (i : Nat) : Check :=
  if i < 32 then dataSignature i else if i = 32 then tagSignature else checkSignature (i - 33)

/-- The check bits the data bits below n contribute. -/
def encodeData : Nat → Word → Check
  | 0, _ => 0
  | n + 1, d => encodeData n d ^^^ (if d.getLsbD n then dataSignature n else 0)

/-- The encoder: the check bits of a data and a tag value (R1). -/
def encode (d : Word) (tag : Bool) : Check :=
  encodeData 32 d ^^^ (if tag then tagSignature else 0)

/-- A codeword with its bit on MD line i inverted (R201). -/
def flipBit (c : Codeword) (i : Nat) : Codeword :=
  if i < 32 then { c with data := c.data ^^^ (1#32 <<< i) }
  else if i = 32 then { c with tag := !c.tag }
  else { c with check := c.check ^^^ (1#7 <<< (i - 33)) }

/-- The syndrome (R3). -/
def syndrome (c : Codeword) : Check := encode c.data c.tag ^^^ c.check

/-- A codeword whose check bits are the encoder's (R1). -/
def validCodeword (c : Codeword) : Prop := c.check = encode c.data c.tag

/-- The bit position a syndrome is the signature of, if any (R3). -/
def locate (σ : Check) : Option Nat := (List.range 40).find? fun i => signatureAt i == σ

/-- Rows 2 to 4 of R4's table: the classification of a codeword after any correction. -/
def classify (c : Codeword) (inverted : Bool) : DecodeResult :=
  { cls := if c.tag then .poisoned else if inverted then .corrected else .clean
    correctedFlag := inverted, data := c.data, tag := c.tag }

/-- R3 to R5: decoding a codeword. -/
def decodeWord (c : Codeword) : DecodeResult :=
  if syndrome c = 0 then classify c false
  else match locate (syndrome c) with
    | some i => classify (flipBit c i) true
    | none => { cls := .uncorrectable, correctedFlag := false, data := c.data, tag := c.tag }

/-- The fresh form (R2). -/
def freshWord (d : Word) : Codeword := { data := d, tag := false, check := encode d false }

/-- The poisoned form (R2). -/
def poisonedWord : Codeword := { data := 0, tag := true, check := encode 0 true }

/-- A raw codeword: data and the 8 side bits as DIAG orders them, tag in bit 7 (R10, R11, R201). -/
def rawWord (d : Word) (side : Side) : Codeword :=
  { data := d, tag := side.getLsbD 7, check := side.extractLsb' 0 7 }

/-- The 8 side bits of a codeword in DIAG's order (R201). -/
def sideBits (c : Codeword) : Side := BitVec.ofBool c.tag ++ c.check

/-- The 40 bits of a codeword on MD[39:0] (R201). -/
def busWord (c : Codeword) : BitVec 40 := c.check ++ BitVec.ofBool c.tag ++ c.data

/-- Whether a decode result is CLEAN or CORRECTED. -/
def DecodeResult.good (r : DecodeResult) : Bool := r.cls == .clean || r.cls == .corrected

end Sys2Proof.Machine
end

