-- ==== Sys2Proof/Machine/Ops.lean ====
section
/-! DEFINITION. The operations every family shares: bit fields, counters, the array, the block map's questions,
posting a record, a free order of two effects. -/

namespace Sys2Proof.Machine

/-! ### Bit fields and counters -/

/-- Bits 15 … 0 of a word (HALF_LOW). -/
def lowHalf (w : Word) : Half := w.extractLsb' 0 16
/-- Bits 31 … 16 of a word (HALF_HIGH). -/
def highHalf (w : Word) : Half := w.extractLsb' 16 16
/-- A word from its two halves. -/
def joinHalves (hi lo : Half) : Word := hi ++ lo
/-- The block of a word address (R16). -/
def blockOf (a : Addr) : Block := a.extractLsb' 8 12
/-- The offset of a word address (R16). -/
def offsetOf (a : Addr) : Offset := a.extractLsb' 0 8
/-- The word address block × 256 + offset (R16). -/
def wordAddr (b : Block) (o : Offset) : Addr := b ++ o
/-- A saturating count raised by 1 (00_scope.md, COUNTERS). -/
def satInc {w : Nat} (x : BitVec w) : BitVec w := if x = BitVec.allOnes w then x else x + 1

/-! ### The array (R1, R13, R99) -/

/-- What an unlisted location holds: the all-zero codeword, which R1 calls a valid codeword. DESIGN CHOICE (log 6). -/
def blank : Codeword := { data := 0, tag := false, check := 0 }

/-- The codeword at an address of the array. -/
def CellArray.get : CellArray → Nat → Codeword
  | [], _ => blank
  | (k, c) :: rest, a => if a = k then c else CellArray.get rest a

/-- The array with one location written; the list stays in canonical form. -/
def CellArray.put : CellArray → Nat → Codeword → CellArray
  | [], a, c => if c = blank then [] else [(a, c)]
  | (k, d) :: rest, a, c =>
    if a < k then (if c = blank then (k, d) :: rest else (a, c) :: (k, d) :: rest)
    else if a = k then (if c = blank then rest else (a, c) :: rest)
    else (k, d) :: CellArray.put rest a c

/-- The canonical form: addresses strictly rising, no location listed that holds `blank`. -/
def CellArray.wf : CellArray → Bool
  | [] => true
  | [(_, c)] => decide (c ≠ blank)
  | (k, c) :: (k', c') :: rest => decide (c ≠ blank) && decide (k < k') && CellArray.wf ((k', c') :: rest)

/-- P, the number of physical blocks, from the sampled strap code (R13). -/
def blocksOf (code : BitVec 2) : Nat := 512 * 2 ^ code.toNat

/-- P as it is in force (R13). -/
def State.physBlocks (s : State) : Nat := blocksOf s.pCode

/-- What the port drives on MA for an address: the lines P does not need are low (R13). -/
def State.maOf (s : State) (a : Addr) : Addr := BitVec.ofNat 20 (a.toNat % (s.physBlocks * 256))

/-- The codeword the array holds at a physical word address (R1). -/
def State.cell (s : State) (a : Addr) : Codeword := s.array.get (s.maOf a).toNat

/-- A read access of the grant in progress (R99). -/
def State.noteRead (s : State) (a : Addr) : State :=
  { s with port := { s.port with accesses := s.port.accesses ++ [.read (s.maOf a)] } }

/-- A write access of the grant in progress (R1, R99). -/
def State.writeCell (s : State) (a : Addr) (c : Codeword) : State :=
  { s with
    array := s.array.put (s.maOf a).toNat c
    port := { s.port with accesses := s.port.accesses ++ [.write (s.maOf a) c] } }

/-- The write to the mirror address, when there is one (R26). -/
def State.writeMirror (s : State) (m : Option Mirror) (c : Codeword) : State :=
  match m with
  | some mi => s.writeCell mi.addr c
  | none => s

/-! ### Channels -/

/-- The context of channel n. -/
def State.chan (s : State) (n : Fin 4) : Channel := s.chans[n]
/-- Channel n's context replaced. -/
def State.setChan (s : State) (n : Fin 4) (c : Channel) : State := { s with chans := s.chans.set n c }
/-- Every channel is CLOSED (R177 check 3). -/
def State.allClosed (s : State) : Bool := s.chans.toList.all fun c => c.state == .closed
/-- The event source of channel n (R159). -/
def hostSource (n : Fin 4) : Source :=
  match n with
  | 0 => .hostCh0
  | 1 => .hostCh1
  | 2 => .hostCh2
  | 3 => .hostCh3

/-! ### The block map's questions (chapter 2) -/

/-- S (R14). -/
def State.spareCount (s : State) : Nat := s.map.spares.length
/-- L (R14). -/
def State.logicalBlocks (s : State) : Nat := if s.map.loaded then s.physBlocks - 2 - s.spareCount else 0
/-- The physical block of a directory copy (R32). -/
def State.copyBlock (s : State) (c : Copy) : Block :=
  match c with
  | .a => BitVec.ofNat 12 (s.physBlocks - 2)
  | .b => BitVec.ofNat 12 (s.physBlocks - 1)
/-- The physical block of spare k, P − 2 − S + k (R15). -/
def State.spareBlock (s : State) (k : Nat) : Block := BitVec.ofNat 12 (s.physBlocks - 2 - s.spareCount + k)
/-- The remap entry of a logical block (R17). -/
def State.entryOf (s : State) (lam : Block) : Option RemapEntry := s.map.remap.find? fun e => e.logical == lam
/-- The home of a logical block (R24). -/
def State.home (s : State) (lam : Block) : Block :=
  match s.entryOf lam with
  | some e => s.spareBlock e.spare
  | none => lam

/-- The roles of a physical block (R15, R18, R23); `unassigned` while no directory is loaded, or beyond P. -/
inductive Role where
  | data | retired | spare (k : Nat) (st : SpareState) | copy (c : Copy) | unassigned
  deriving DecidableEq, Repr

/-- The role of a physical block as the map stands (R15, R23). -/
def State.roleOf (s : State) (b : Block) : Role :=
  if b.toNat = s.physBlocks - 1 then .copy .b
  else if b.toNat = s.physBlocks - 2 then .copy .a
  else if !s.map.loaded then .unassigned
  else if b.toNat < s.logicalBlocks then (if (s.entryOf b).isSome then .retired else .data)
  else match s.map.spares[b.toNat - s.logicalBlocks]? with
    | some st => .spare (b.toNat - s.logicalBlocks) st
    | none => .unassigned

/-- The logical block a physical block serves (R123): a data block in service or an IN_USE spare. -/
def State.servedBy (s : State) (b : Block) : Option Block :=
  match s.roleOf b with
  | .data => some b
  | .spare k .inUse => (s.map.remap.find? fun e => e.spare == k).map (·.logical)
  | _ => none

/-- The scrub engine skips a block of these roles (R107). -/
def State.skipped (s : State) (b : Block) : Bool :=
  match s.roleOf b with
  | .retired => true
  | .spare _ .condemned => true
  | .spare _ .allocated => true
  | .copy c => s.dir.state != .idle && s.dir.target == some c
  | _ => false

/-- A spare's state replaced. -/
def State.setSpare (s : State) (k : Nat) (st : SpareState) : State :=
  { s with map := { s.map with spares := s.map.spares.set k st } }

/-- The FREE spare of lowest index (R19). -/
def State.freeSpare (s : State) : Option Nat := s.map.spares.findIdx? fun st => st == .free

/-! ### Posting (R160, R162) -/

/-- A record is offered to the event queue: it joins the tail, or is lost when the queue holds 16. -/
def Events.offer (e : Events) (r : EventRecord) : Events :=
  if e.queue.length < 16 then { e with queue := e.queue ++ [r] } else { e with lost := satInc e.lost }

/-- A block posts a record. -/
def State.post (s : State) (r : EventRecord) : State := { s with events := s.events.offer r }

/-- Two effects of one event whose records no rule orders: either runs first (R160). FREE VALUE (log 8). -/
def State.eitherWay (s : State) (f g : State → State) : State :=
  let s' := { s with choices := s.choices + 1 }
  if Config.eitherOrder s.choices then g (f s') else f (g s')

/-! ### Command completion (R176), which many blocks reach -/

/-- The detail of COMMAND_DONE: command code, result code (R199). -/
def resultCode (r : Result) : BitVec 4 :=
  match r with
  | .ok => 0 | .okDegraded => 1 | .badArg => 2 | .notReady => 3 | .active => 4 | .noSpare => 5 | .queueFull => 6
  | .duplicate => 7 | .tooLate => 8 | .notFound => 9 | .dirReadonly => 10 | .dirFail => 11 | .aborted => 12

/-- The COMMAND_DONE record (R161). -/
def commandDoneRecord (field : BitVec 8) (r : Result) : EventRecord :=
  { kind := .commandDone, source := .command, phys := none, logical := none, offset := none,
    detail := field ++ (resultCode r).setWidth 8 }

/-- R176: the command of the command field completes with a result. -/
def State.complete (s : State) (r : Result) : State :=
  { s.post (commandDoneRecord s.cmd.field r) with
    cmd := { s.cmd with result := r, running := none }
    irq := { s.irq with cmdDone := true } }

/-- R47 step 4: the commit unit tells the command engine of a success; a COMMIT that waits for this commit
completes. -/
def State.tellCommitSuccess (s : State) : State :=
  match s.cmd.running with
  | some (.commit false) => s.complete .ok
  | _ => s

/-- R48 step 6, R49: the commit unit tells the command engine of a failure; a waiting COMMIT completes. -/
def State.tellCommitFailure (s : State) : State :=
  match s.cmd.running with
  | some (.commit _) => s.complete .dirReadonly
  | _ => s

/-- The tick count returns to 0 when the period timer stops or starts (R108). -/
def State.clearTicks (s : State) : State := { s with scrub := { s.scrub with ticks := 0 } }

/-- The period timer runs (R108). -/
def State.timerRuns (s : State) : Bool := s.dev.state == .ready && s.scrub.enable && s.scrub.period != 0

end Sys2Proof.Machine
end

