-- ==== Sys2Proof/Machine/Operands.lean ====
section
/-! DEFINITION. The fields of written values (R196, R197): CTRL, COMMAND, DIAG, SPARE_CTRL, TABLE_SELECT, IRQ. -/

namespace Sys2Proof.Machine

/-- CTRL bits 1-0. -/
def ctrlMode (v : Half) : ChanMode :=
  match (v.extractLsb' 0 2).toNat with
  | 0 => .read
  | 1 => .write
  | 2 => .rawRead
  | _ => .rawWrite

/-- CTRL bits 3-2; code 3 is loaded as WORD (R197). -/
def ctrlWidth (v : Half) : ChanWidth :=
  match (v.extractLsb' 2 2).toNat with
  | 1 => .halfLow
  | 2 => .halfHigh
  | _ => .word

/-- CTRL bit 4. -/
def ctrlStep (v : Half) : ChanStep := if v.getLsbD 4 then .down else .up
/-- CTRL bit 5. -/
def ctrlPolicy (v : Half) : EndPolicy := if v.getLsbD 5 then .wrap else .stop

/-- The RESUME field (R58). -/
inductive Resume where
  | noResume | retry | skip
  deriving DecidableEq, Repr

/-- CTRL bits 10-9; code 3 is taken as NONE (R197). -/
def ctrlResume (v : Half) : Resume :=
  match (ctrlResumeBits v).toNat with
  | 1 => .retry
  | 2 => .skip
  | _ => .noResume

/-- A CTRL write's settings loaded (R58). -/
def Channel.loadSettings (c : Channel) (v : Half) : Channel :=
  { c with mode := ctrlMode v, width := ctrlWidth v, step := ctrlStep v, policy := ctrlPolicy v }

/-- The code of a command in the COMMAND row of the register map. -/
def commandCode (c : Command) : BitVec 8 :=
  match c with
  | .format => 0x21
  | .remount => 0x22
  | .commit => 0x31
  | .spareBlock => 0x41
  | .cancelSpare => 0x42
  | .scrubRange => 0x51
  | .clearFaults => 0x61
  | .softReset => 0x7E

/-- The command a value written to COMMAND names, if any (R197): bits 15-8 must be zero. -/
def commandOf (v : Half) : Option Command :=
  if v = 0x21 then some .format
  else if v = 0x22 then some .remount
  else if v = 0x31 then some .commit
  else if v = 0x41 then some .spareBlock
  else if v = 0x42 then some .cancelSpare
  else if v = 0x51 then some .scrubRange
  else if v = 0x61 then some .clearFaults
  else if v = 0x7E then some .softReset
  else none

/-- A DIAG write loads both fields (R12, R196). -/
def diagOf (v : Half) : Diag := { rawEnable := v.getLsbD 15, side := v.extractLsb' 0 8 }

/-- A SPARE_CTRL write loads all four fields (R134, R196). -/
def spareCtrlOf (v : Half) : SpareCtrl :=
  { threshold := v.extractLsb' 0 8, autoUncorrectable := v.getLsbD 8, reportCorrected := v.getLsbD 9,
    commitDoneEvent := v.getLsbD 10 }

end Sys2Proof.Machine
end

