-- ==== Sys2Proof/Machine/Faults.lean ====
section
/-! DEFINITION. The fault table: slots, the update order, eviction, notices, CLEAR_FAULTS (chapter 7). -/

namespace Sys2Proof.Machine

/-- R123: the logical block field, from the role of the block as the map stands; `old` is the field before. -/
def State.refreshLogical (s : State) (b : Block) (old : Option Block) : Option Block :=
  match s.roleOf b with
  | .retired => old
  | _ => s.servedBy b

/-- The slot that holds the record of a physical block. -/
def FaultTable.slotOf (t : FaultTable) (b : Block) : Option Nat :=
  t.slots.toList.findIdx? fun r => r.any fun x => x.phys == b

/-- The record of a physical block. -/
def FaultTable.recordOf (t : FaultTable) (b : Block) : Option FaultRecord :=
  (t.slots.toList.find? fun r => r.any fun x => x.phys == b).join

/-- A slot filled or emptied. -/
def FaultTable.setSlot (t : FaultTable) (i : Nat) (r : Option FaultRecord) : FaultTable :=
  { t with slots := t.slots.setIfInBounds i r }

/-- The record of a block moves to the most recent place of the update order (R122). -/
def FaultTable.touch (t : FaultTable) (b : Block) : FaultTable :=
  { t with order := (t.order.filter fun x => x != b) ++ [b] }

/-- The records with their slots, from least to most recently updated. -/
def FaultTable.byAge (t : FaultTable) : List (Nat × FaultRecord) :=
  t.order.filterMap fun b =>
    match t.slotOf b, t.recordOf b with
    | some i, some r => some (i, r)
    | _, _ => none

/-- The first of the records with the lowest corrected count. -/
def lowestCorrected : List (Nat × FaultRecord) → Option (Nat × FaultRecord)
  | [] => none
  | x :: rest =>
    match lowestCorrected rest with
    | none => some x
    | some y => if y.2.corrected < x.2.corrected then some y else some x

/-- R126: the record to evict: RETIRED, then UNSPAREABLE (each the least recently updated), then the OBSERVED
record with uncorrectable count 0 of lowest corrected count. -/
def FaultTable.evictee (t : FaultTable) : Option (Nat × FaultRecord) :=
  match t.byAge.find? fun x => x.2.state == .retired with
  | some x => some x
  | none =>
    match t.byAge.find? fun x => x.2.state == .unspareable with
    | some x => some x
    | none => lowestCorrected (t.byAge.filter fun x => x.2.state == .observed && x.2.uncorrectable == 0)

/-- R125: the slot a new record takes, and the table with an evicted record removed; `none` when there is no room. -/
def FaultTable.room (t : FaultTable) : Option (Nat × FaultTable) :=
  match t.slots.toList.findIdx? Option.isNone with
  | some i => some (i, t)
  | none =>
    match t.evictee with
    | some (i, r) => some (i, { t.setSlot i none with order := t.order.filter fun x => x != r.phys })
    | none => none

/-- R125: a new record is made, at the most recent place; the untracked condition is left (R127). -/
def FaultTable.insert (t : FaultTable) (r : FaultRecord) : Option FaultTable :=
  match t.room with
  | some (i, t') => some { (t'.setSlot i (some r)).touch r.phys with full := false }
  | none => none

/-- R132: a notice for the block changes its record's state, when it is one of `before`, and refreshes the logical
block field. -/
def State.notice (s : State) (b : Block) (before : List FaultState) (after : FaultState) : State :=
  match s.faults.slotOf b, s.faults.recordOf b with
  | some i, some r =>
    if r.state ∈ before then
      { s with faults := s.faults.setSlot i (some { r with state := after, logical := s.refreshLogical b r.logical }) }
    else s
  | _, _ => s

/-- R132: the start notice: the record becomes MIGRATING from any state, and is made when there is none and there
is room. -/
def State.startNotice (s : State) (b : Block) : State :=
  match s.faults.recordOf b with
  | some _ => s.notice b [.observed, .queued, .migrating, .retired, .unspareable] .migrating
  | none =>
    match s.faults.insert
      { phys := b, logical := s.refreshLogical b none, corrected := 0, uncorrectable := 0, lastOffset := 0,
        lastSource := .migrate, state := .migrating } with
    | some t => { s with faults := t }
    | none => s

/-- R133: a record that stays through CLEAR_FAULTS. -/
def keptByClear (r : FaultRecord) : Bool := r.state == .queued || r.state == .migrating

/-- R133: CLEAR_FAULTS. -/
def FaultTable.clear (t : FaultTable) : FaultTable :=
  { slots := t.slots.map fun r => r.filter keptByClear
    order := t.order.filter fun b => (t.recordOf b).any keptByClear
    untracked := 0
    full := false }

end Sys2Proof.Machine
end

