-- ==== Sys2Proof/Machine/Migration.lean ====
section
/-! DEFINITION. The migration engine: requests, starts, abandonment, cancel (chapter 8). -/

namespace Sys2Proof.Machine

/-- The engine's answer to a request (R139). -/
inductive MigAnswer where
  | accepted | duplicate | queueFull
  deriving DecidableEq, Repr

/-- R198: the code of an abandonment reason. -/
def reasonCode (r : AbandonReason) : Half :=
  match r with
  | .noSpare => 1
  | .retries => 2
  | .commitFailed => 3
  | .cancelled => 4

/-- The MIGRATION_ABANDONED record (R140 step 3). -/
def abandonedRecord (source lam : Block) (r : AbandonReason) : EventRecord :=
  { kind := .migrationAbandoned, source := .migrate, phys := some source, logical := some lam, offset := none,
    detail := reasonCode r }

/-- R142 steps 1 to 5: the head `lam` starts with the FREE spare k. -/
def State.startWith (s : State) (lam : Block) (k : Nat) : State :=
  let src := s.home lam
  let s' := { s.setSpare k .allocated with
    mig := { s.mig with
      flight := some { phase := .copy, lam := lam, source := src, spare := k, cursor := 0, poison := 0, attempt := 1,
                       ident := s.mig.nextId }
      nextId := s.mig.nextId + 1 } }
  s'.startNotice src

/-- R132: the states an abandonment notice acts on. -/
def abandonedBefore (r : AbandonReason) : List FaultState :=
  match r with
  | .noSpare => [.queued, .migrating]
  | .retries => [.queued, .migrating]
  | .commitFailed => [.migrating]
  | .cancelled => [.migrating]

/-- R143: a request taken at a start ends NO_SPARE. -/
def State.endNoSpare (s : State) (lam : Block) : State :=
  (s.notice (s.home lam) (abandonedBefore .noSpare) .unspareable).post (abandonedRecord (s.home lam) lam .noSpare)

/-- R142, R143: starts from the queue: the head starts when a spare is FREE; otherwise it ends NO_SPARE and the next
entry is tried. -/
def startFrom : List MigRequest → State → State
  | [], s => { s with mig := { s.mig with queue := [] } }
  | r :: rest, s =>
    match s.freeSpare with
    | some k => ({ s with mig := { s.mig with queue := rest } } : State).startWith r.block k
    | none => startFrom rest (s.endNoSpare r.block)

/-- R141: whether a start is tried. -/
def State.startDue (s : State) : Bool :=
  s.mig.flight.isNone && s.dev.state == .ready && !s.dev.dirReadonly && !s.mig.queue.isEmpty

/-- R141: a start is tried at the end of an event. -/
def State.tryStart (s : State) : State := if s.startDue then startFrom s.mig.queue s else s

/-- R139: the answer to a request for `lam`. -/
def State.migAnswer (s : State) (lam : Block) : MigAnswer :=
  if (s.mig.flight.any fun m => m.lam == lam) || (s.mig.queue.any fun r => r.block == lam) then .duplicate
  else if s.mig.queue.length ≥ 8 then .queueFull
  else .accepted

/-- R139: a request for `lam`: accepted, it joins the tail, the fault table is told, a start is tried. -/
def State.requestMigration (s : State) (lam : Block) (o : Origin) : State :=
  match s.migAnswer lam with
  | .accepted =>
    (({ s with mig := { s.mig with queue := s.mig.queue ++ [{ block := lam, origin := o }] } } : State).notice
      (s.home lam) [.observed, .unspareable] .queued).tryStart
  | _ => s

/-- R22: an ALLOCATED spare is released to FREE. -/
def State.release (s : State) (k : Nat) : State :=
  if s.map.spares[k]? = some .allocated then s.setSpare k .free else s

/-- R140, R132: the state the source's record takes. -/
def abandonedState (r : AbandonReason) : FaultState :=
  match r with
  | .noSpare => .unspareable
  | .retries => .unspareable
  | .commitFailed => .observed
  | .cancelled => .observed

/-- R140: the migration in flight ends ABANDONED: the spare, the notice, the record, IDLE, a start tried. -/
def State.abandon (s : State) (m : Migration) (r : AbandonReason) : State :=
  let s1 := match r with
    | .commitFailed => s.release m.spare
    | .cancelled => s.release m.spare
    | .noSpare => s
    | .retries => s
  let s2 := (s1.notice m.source (abandonedBefore r) (abandonedState r)).post (abandonedRecord m.source m.lam r)
  ({ s2 with mig := { s2.mig with flight := none } } : State).tryStart

/-- R48 step 4, R49, R152: a migration in COMMIT_WAIT ends ABANDONED with COMMIT_FAILED. -/
def State.abandonWaiting (s : State) : State :=
  match s.mig.flight with
  | some m => if m.phase = .commitWait then s.abandon m .commitFailed else s
  | none => s

/-- R153: CANCEL_SPARE's result for `lam`. -/
def State.cancelAnswer (s : State) (lam : Block) : Result :=
  if s.mig.queue.any fun r => r.block == lam then .ok
  else match s.mig.flight with
    | some m => if m.lam = lam then (if m.phase = .commitWait then .tooLate else .ok) else .notFound
    | none => .notFound

/-- R153: what CANCEL_SPARE does at the engine. -/
def State.cancelMigration (s : State) (lam : Block) : State :=
  if s.mig.queue.any fun r => r.block == lam then
    ({ s with mig := { s.mig with queue := s.mig.queue.filter fun r => r.block != lam } } : State).notice
      (s.home lam) [.queued] .observed
  else match s.mig.flight with
    | some m => if m.lam = lam ∧ m.phase ≠ .commitWait then s.abandon m .cancelled else s
    | none => s

/-- R155: SOFT_RESET at the engine: the queue is emptied; a migration in COPY or VERIFY is cut off and its spare
released; one in COMMIT_WAIT is kept. -/
def State.softResetMigration (s : State) : State :=
  let s1 := { s with mig := { s.mig with queue := [] } }
  match s.mig.flight with
  | some m =>
    if m.phase = .commitWait then s1
    else
      let s2 := s1.release m.spare
      { s2 with mig := { s2.mig with flight := none } }
  | none => s1

end Sys2Proof.Machine
end

