-- ==== Sys2Proof/Machine/Directory.lean ====
section
/-! DEFINITION. The directory record and the commit unit, with the map events that ask it for a commit: condemnation,
activation, completion of a migration (chapters 2, 3, 8). -/

namespace Sys2Proof.Machine

/-! ### The record (R32, R201) -/

/-- R32: the signature. -/
def signature : Word := 0x3B9E0A71

/-- R201: the code of a spare state in a spare-state word; ALLOCATED is never recorded (R32). -/
def spareCode (st : SpareState) : BitVec 2 :=
  match st with
  | .free => 0
  | .inUse => 1
  | .condemned => 2
  | .allocated => 3

/-- R201: word 2 of a copy: P, S and version 1. -/
def geometryWord (blocks spares : Nat) : Word :=
  (1#8 ++ BitVec.ofNat 8 spares) ++ BitVec.ofNat 16 blocks

/-- R201: the word of a remap entry: valid mark, spare index, logical block. -/
def entryWord (e : RemapEntry) : Word :=
  (1#1 ++ 0#10 ++ BitVec.ofNat 5 e.spare) ++ (0#4 ++ e.logical)

/-- Words 0 … 254 of a copy, word 0 as the signature (R32). -/
def Snapshot.bodyWord (r : Snapshot) (i : Nat) : Word :=
  if i = 0 then signature
  else if i = 1 then r.gen
  else if i = 2 then geometryWord r.blocks r.spares.length
  else if i = 3 then BitVec.ofNat 32 r.entries.length
  else if i < 36 then match r.entries[i - 4]? with
    | some e => entryWord e
    | none => 0
  else if i < 68 then match r.spares[i - 36]? with
    | some st => (spareCode st).setWidth 32
    | none => 0
  else 0

/-- The wrapping sum of words 0 … n − 1 of a copy. -/
def Snapshot.sumBelow (r : Snapshot) : Nat → Word
  | 0 => 0
  | n + 1 => r.sumBelow n + r.bodyWord n

/-- R32: the check word, the two's complement of the sum of words 0 … 254. -/
def Snapshot.checkWord (r : Snapshot) : Word := -(r.sumBelow 255)

/-- The 256 words of a complete copy (R32). -/
def Snapshot.wordAt (r : Snapshot) (i : Nat) : Word := if i = 255 then r.checkWord else r.bodyWord i

/-- R45: what an attempt writes and reads back at a word: zero at word 0. -/
def Snapshot.attemptWord (r : Snapshot) (i : Nat) : Word := if i = 0 then 0 else r.wordAt i

/-- The copy written when no snapshot is held; a commit in progress always holds one. -/
def Snapshot.none : Snapshot := { gen := 0, blocks := 0, entries := [], spares := [], included := Option.none }

/-! ### Knowledge of the copies (R41) -/

/-- What the unit knows of a copy. -/
def CommitUnit.known (d : CommitUnit) (c : Copy) : CopyKnown :=
  match c with
  | .a => d.copyA
  | .b => d.copyB

/-- What the unit knows of a copy, replaced. -/
def CommitUnit.setKnown (d : CommitUnit) (c : Copy) (k : CopyKnown) : CommitUnit :=
  match c with
  | .a => { d with copyA := k }
  | .b => { d with copyB := k }

/-- A copy is known as invalid; the generation it held is kept beside the mark. -/
def CommitUnit.markInvalid (d : CommitUnit) (c : Copy) : CommitUnit :=
  d.setKnown c { valid := false, gen := (d.known c).gen }

/-- R43: the target of a commit. -/
def CommitUnit.chooseTarget (d : CommitUnit) : Copy :=
  match d.copyA.valid, d.copyB.valid with
  | false, _ => .a
  | true, false => .b
  | true, true => if d.copyA.gen < d.copyB.gen then .a else .b

/-! ### The snapshot (R44) -/

/-- R44: the migration a snapshot includes: the one in COMMIT_WAIT. -/
def State.waitingMigration (s : State) : Option Migration := s.mig.flight.filter fun m => m.phase == .commitWait

/-- R44: the entries of a snapshot. -/
def State.snapshotEntries (s : State) : List RemapEntry :=
  match s.waitingMigration with
  | none => s.map.remap
  | some m =>
    if (s.entryOf m.lam).isSome then
      s.map.remap.map fun e => if e.logical = m.lam then { e with spare := m.spare } else e
    else s.map.remap ++ [{ logical := m.lam, spare := m.spare }]

/-- R44: the state a snapshot records for spare k. -/
def State.snapshotSpare (s : State) (k : Nat) (st : SpareState) : SpareState :=
  match s.waitingMigration with
  | none => if st = .allocated then .free else st
  | some m =>
    if st = .allocated then .inUse
    else if (s.entryOf m.lam).any (fun e => e.spare == k) then .condemned
    else st

/-- R44: the snapshot, with the generation of the commit. -/
def State.takeSnapshot (s : State) (gen : Word) : Snapshot :=
  { gen := gen, blocks := s.physBlocks, entries := s.snapshotEntries,
    spares := s.map.spares.mapIdx s.snapshotSpare,
    included := s.waitingMigration.map (·.ident) }

/-! ### Starting, failing, requesting a commit -/

/-- R198: COMMIT_DONE and COMMIT_FAILED records. -/
def commitRecord (kind : EventKind) (target : Option Block) (detail : Half) : EventRecord :=
  { kind := kind, source := .commit, phys := target, logical := none, offset := none, detail := detail }

/-- DIR_READONLY is set (R50). -/
def State.setReadonly (s : State) : State := { s with dev := { s.dev with dirReadonly := true } }

/-- The unit enters IDLE with its pending flag at 0. -/
def State.commitIdle (s : State) : State :=
  { s with dir := { s.dir with state := .idle, pendingFlag := false, closing := false } }

/-- R48 steps 2 to 7, and R49, which post a different record: DIR_READONLY, the record, the waiting migration, the
pending flag, the command engine, IDLE. -/
def State.failCommit (s : State) (r : EventRecord) : State :=
  let s1 := (s.setReadonly.post r).abandonWaiting
  let s2 := { s1 with dir := { s1.dir with pendingFlag := false } }
  s2.tellCommitFailure.commitIdle

/-- R43 (with R44) or R49: a commit would start. -/
def State.startCommit (s : State) : State :=
  if s.dir.gen = BitVec.allOnes 32 then s.failCommit (commitRecord .commitFailed none 0)
  else
    let t := s.dir.chooseTarget
    { s with
      dir := { s.dir.markInvalid t with
        state := .writing, attempt := 1, word := 0, closing := false, target := some t,
        snapshot := some (s.takeSnapshot (s.dir.gen + 1)) } }

/-- R42: a commit request reaches the unit. -/
def State.requestCommit (s : State) : State :=
  match s.dir.state with
  | .idle => if s.dev.dirReadonly then s else s.startCommit
  | _ => { s with dir := { s.dir with pendingFlag := true } }

/-- R46: a readback word fails: a new attempt, or the commit fails (R48). -/
def State.attemptFailed (s : State) : State :=
  if s.dir.attempt < 3 then
    { s with dir := { s.dir with attempt := s.dir.attempt + 1, word := 0, state := .writing, closing := false } }
  else s.failCommit (commitRecord .commitFailed (s.dir.target.map s.copyBlock) 3)

/-- R51: a scrub read finds a directory copy bad. -/
def State.dirFinding (s : State) (c : Copy) : State :=
  if (s.dir.known c).valid then
    let s1 := { s with dir := s.dir.markInvalid c }
    if s1.dev.dirReadonly then s1 else s1.requestCommit
  else s

/-! ### Condemnation and activation (R20, R21) -/

/-- The SPARE_CONDEMNED record (R20). -/
def condemnedRecord (source : Source) (b : Block) (k : Nat) : EventRecord :=
  { kind := .spareCondemned, source := source, phys := some b, logical := none, offset := none,
    detail := BitVec.ofNat 16 k }

/-- R20: the map's part of a condemnation, the state and the record. -/
def State.markCondemned (s : State) (k : Nat) (source : Source) : State :=
  (s.setSpare k .condemned).post (condemnedRecord source (s.spareBlock k) k)

/-- R20: a condemnation for a cause that applies to spares in `cause`; in any other state it has no effect. -/
def State.condemn (s : State) (k : Nat) (cause : SpareState) (source : Source) : State :=
  if s.map.spares[k]? = some cause then (s.markCondemned k source).requestCommit else s

/-- R42: a request that the unit makes to itself while a commit completes, taken as a request in WRITING. -/
def State.requestFurther (s : State) : State := { s with dir := { s.dir with pendingFlag := true } }

/-- R21: the map's part of an activation: the entry and the allocated spare. -/
def State.mapActivate (s : State) (m : Migration) : State :=
  let remap :=
    if (s.entryOf m.lam).isSome then
      s.map.remap.map fun e => if e.logical = m.lam then { e with spare := m.spare } else e
    else s.map.remap ++ [{ logical := m.lam, spare := m.spare }]
  { s with map := { s.map with remap := remap, spares := s.map.spares.set m.spare .inUse } }

/-- R21: activation; a spare the entry named before is condemned and a further commit is requested, which sets the
pending flag (R42, R151). -/
def State.activate (s : State) (m : Migration) : State :=
  let s1 := s.mapActivate m
  match s.entryOf m.lam with
  | some old =>
    if s1.map.spares[old.spare]? = some .inUse then (s1.markCondemned old.spare .migrate).requestFurther else s1
  | none => s1

/-- The number of flags set in a poison map. -/
def flagsSet (p : BitVec 256) : Nat := ((List.range 256).filter fun i => p.getLsbD i).length

/-- R151: a migration completes: activation, notice, MIGRATION_DONE, IDLE and a start tried. DESIGN CHOICE (log 27): the
start is tried here, at R151 step 4, with DIR_READONLY as it stands then; R141 speaks of the end of the event. -/
def State.completeMigration (s : State) (m : Migration) : State :=
  let s1 := (s.activate m).notice m.source [.migrating] .retired
  let s2 := s1.post { kind := .migrationDone, source := .migrate, phys := some (s1.spareBlock m.spare),
                      logical := some m.lam, offset := none, detail := BitVec.ofNat 16 (flagsSet m.poison) }
  ({ s2 with mig := { s2.mig with flight := none } } : State).tryStart

/-- R47 step 3, R150: the migration that the snapshot includes completes. -/
def State.completeIncluded (s : State) : State :=
  match s.mig.flight with
  | some m =>
    if m.phase = .commitWait ∧ s.dir.snapshot.bind (·.included) = some m.ident then s.completeMigration m else s
  | none => s

/-- R47 step 1: G rises and the target copy is known as valid. -/
def State.recordCommit (s : State) : State :=
  let g := s.dir.gen + 1
  match s.dir.target with
  | some t => { s with dir := { s.dir with gen := g }.setKnown t { valid := true, gen := g } }
  | none => { s with dir := { s.dir with gen := g } }

/-- R47 step 2: COMMIT_DONE, when its event is enabled. -/
def State.postCommitDone (s : State) : State :=
  if s.spareCtrl.commitDoneEvent then
    s.post (commitRecord .commitDone (s.dir.target.map s.copyBlock) (s.dir.gen.setWidth 16))
  else s

/-- R183: a COMMIT that waits for the commit of the pending flag waits, once that starts, for the commit in
progress. -/
def State.advanceWait (s : State) : State :=
  match s.cmd.running with
  | some (.commit true) => { s with cmd := { s.cmd with running := some (.commit false) } }
  | _ => s

/-- R47 step 5: the pending flag starts a new commit, or the unit enters IDLE. -/
def State.nextCommit (s : State) : State :=
  if s.dir.pendingFlag then
    let s1 := s.advanceWait
    ({ s1 with dir := { s1.dir with pendingFlag := false } } : State).startCommit
  else s.commitIdle

/-- R47: a commit succeeds, its five steps in order. DESIGN CHOICE (log 27): where step 5 meets the generation limit
(R49), the head of the migration queue has started at step 3, before DIR_READONLY is set. -/
def State.commitSuccess (s : State) : State :=
  s.recordCommit.postCommitDone.completeIncluded.tellCommitSuccess.nextCommit

/-- A directory copy's word at an offset (R32). -/
def State.copyAddr (s : State) (c : Copy) (o : Offset) : Addr := wordAddr (s.copyBlock c) o

/-- R45: after a write grant: the next word, or READBACK. -/
def State.dirWritten (s : State) : State :=
  if s.dir.word = 255 then { s with dir := { s.dir with word := 0, state := .readback } }
  else { s with dir := { s.dir with word := s.dir.word + 1 } }

/-- R45, R46: whether a readback result passes: CLEAN with the data the attempt wrote. -/
def readbackPasses (r : DecodeResult) (expected : Word) : Bool := r.cls == .clean && r.data == expected

/-- R45, R46: after a readback read: the next word, the closing write, or a failed attempt. -/
def State.dirReadBack (s : State) (r : DecodeResult) : State :=
  if readbackPasses r ((s.dir.snapshot.getD Snapshot.none).attemptWord s.dir.word.toNat) then
    if s.dir.word = 255 then { s with dir := { s.dir with closing := true } }
    else { s with dir := { s.dir with word := s.dir.word + 1 } }
  else s.attemptFailed

end Sys2Proof.Machine
end

