-- ==== Sys2Proof/Machine/Report.lean ====
section
/-! DEFINITION. Reports to the fault table and what they set off (R96, R124 to R131). -/

namespace Sys2Proof.Machine

/-- A report of a decoding grant (R96): block, offset, whether UNCORRECTABLE (else CORRECTED), source. -/
structure Report where
  phys : Block
  offset : Offset
  bad : Bool
  source : Source
  deriving DecidableEq, Repr

/-- R124: the counts, the offset and the source of a record after a report. -/
def FaultRecord.count (r : FaultRecord) (rep : Report) : FaultRecord :=
  { r with
    corrected := if rep.bad then r.corrected else satInc r.corrected
    uncorrectable := if rep.bad then satInc r.uncorrectable else r.uncorrectable
    lastOffset := rep.offset
    lastSource := rep.source }

/-- R125: the new record of a report. -/
def newRecord (rep : Report) (logical : Option Block) : FaultRecord :=
  { phys := rep.phys, logical := logical, corrected := if rep.bad then 0 else 1,
    uncorrectable := if rep.bad then 1 else 0, lastOffset := rep.offset, lastSource := rep.source,
    state := .observed }

/-- R124, R125: the table with the report counted, or `none` when the report is untracked (R127). -/
def State.countReport (s : State) (rep : Report) : Option FaultTable :=
  match s.faults.slotOf rep.phys, s.faults.recordOf rep.phys with
  | some i, some r =>
    some ((s.faults.setSlot i
      (some { r.count rep with logical := s.refreshLogical rep.phys r.logical })).touch rep.phys)
  | _, _ => s.faults.insert (newRecord rep (s.refreshLogical rep.phys none))

/-- R129: whether the record asks for a migration of the block it serves. -/
def migrationTest (c : SpareCtrl) (r : FaultRecord) : Bool :=
  r.state == .observed &&
    ((c.threshold != 0 && c.threshold ≤ r.corrected) || (c.autoUncorrectable && r.uncorrectable != 0))

/-- R131: whether the record of a FREE spare asks for its condemnation. -/
def spareTest (c : SpareCtrl) (r : FaultRecord) : Bool :=
  r.state == .observed && c.threshold != 0 && c.threshold ≤ r.corrected

/-- R129, R131: the test after a report, made while the device is in READY (log 16). -/
def State.testRecord (s : State) (b : Block) : State :=
  match s.faults.recordOf b with
  | none => s
  | some r =>
    if s.dev.state ≠ .ready then s
    else match s.servedBy b with
      | some lam => if migrationTest s.spareCtrl r then s.requestMigration lam .auto else s
      | none =>
        match s.roleOf b with
        | .spare k .free => if spareTest s.spareCtrl r then s.condemn k .free .scrub else s
        | _ => s

/-- R128: the CORRECTED event, under REPORT_CORRECTED, for a CORRECTED report. -/
def State.postCorrected (s : State) (rep : Report) (logical : Option Block) (detail : Half) : State :=
  if s.spareCtrl.reportCorrected && !rep.bad then
    s.post { kind := .corrected, source := rep.source, phys := some rep.phys, logical := logical,
             offset := some rep.offset, detail := detail }
  else s

/-- R127: an untracked report. -/
def State.untrackedReport (s : State) (rep : Report) : State :=
  let n := satInc s.faults.untracked
  let s1 := { s with faults := { s.faults with untracked := n, full := true } }
  let s2 := if s.faults.full then s1
    else s1.post { kind := .faultTableFull, source := rep.source, phys := some rep.phys,
                   logical := s.refreshLogical rep.phys none, offset := some rep.offset, detail := n }
  s2.postCorrected rep (s.refreshLogical rep.phys none) 0

/-- R128: the detail of CORRECTED, the corrected count after the update. -/
def correctedDetail (r : Option FaultRecord) : Half :=
  match r with
  | some q => q.corrected.setWidth 16
  | none => 0

/-- R96, R124 to R131: a report is counted, in every device state (in FORMATTING too: log 29), and the record tested. -/
def State.takeReport (s : State) (rep : Report) : State :=
  match s.countReport rep with
  | none => s.untrackedReport rep
  | some t =>
    let s1 := { s with faults := t }
    let r := t.recordOf rep.phys
    let post := fun (x : State) =>
      x.postCorrected rep (r.bind fun q => q.logical) (correctedDetail r)
    let test := fun (x : State) => x.testRecord rep.phys
    if s.spareCtrl.reportCorrected && !rep.bad then s1.eitherWay post test else test s1

/-- R96: the report of a decode result, sent when it is CORRECTED or UNCORRECTABLE. -/
def reportOf (a : Addr) (src : Source) (r : DecodeResult) : Option Report :=
  match r.cls with
  | .corrected => some { phys := blockOf a, offset := offsetOf a, bad := false, source := src }
  | .uncorrectable => some { phys := blockOf a, offset := offsetOf a, bad := true, source := src }
  | _ => none

/-- The report of a grant taken before, between or after the ordered parts `fs` of its requester (R96, R113, R160).
FREE VALUE (log 8). -/
def insertReport (rep : Report) : List (State → State) → State → State
  | [], s => s.takeReport rep
  | f :: fs, s =>
    let s' := { s with choices := s.choices + 1 }
    if Config.eitherOrder s.choices then fs.foldl (fun x g => g x) (f (s'.takeReport rep))
    else insertReport rep fs (f s')

/-- The report of a grant and its requester's part, two blocks acting in one event (R96, R160). -/
def State.withReport (s : State) (rep : Option Report) (f : State → State) : State :=
  match rep with
  | none => f s
  | some r => s.eitherWay (fun x => x.takeReport r) f

/-- A result that reaches a requester that no longer holds the work: only the report is taken (R98). -/
def State.reportOnly (s : State) (rep : Option Report) : State :=
  match rep with
  | some r => s.takeReport r
  | none => s

end Sys2Proof.Machine
end

