-- ==== Sys2Proof/Machine/Scrub.lean ====
section
/-! DEFINITION. The scrub engine: pacing, slices, skipping, the action on a word, range runs (chapter 6). -/

namespace Sys2Proof.Machine

/-- The word the normal scrub visits next (R104). -/
def Scrub.wordAddr (c : Scrub) : Addr := (c.block ++ c.slice) ++ c.word

/-- R111: the clearing level. -/
def Scrub.clearLevel (c : Scrub) : BitVec 4 := c.urgentLevel >>> 1

/-- The cursor after a slice: the next slice, the next block, or block 0 (R105). -/
def State.nextSlice (s : State) : Block × BitVec 4 :=
  if s.scrub.slice ≠ 15 then (s.scrub.block, s.scrub.slice + 1)
  else if s.scrub.block.toNat < s.physBlocks - 1 then (s.scrub.block + 1, 0)
  else (0, 0)

/-- A slice that is the last of the array (R105). -/
def State.passEnds (s : State) : Bool := s.scrub.slice == 15 && decide (s.physBlocks - 1 ≤ s.scrub.block.toNat)

/-- R110: the backlog falls; the lag state and the urgent flag follow. -/
def Scrub.spend (c : Scrub) : Scrub :=
  let b := if c.backlog = 0 then 0 else c.backlog - 1
  { c with
    backlog := b
    inLag := c.inLag && b == 15
    urgent := c.urgent && decide (c.clearLevel < b) }

/-- R105, R110: the slice at the cursor is complete. -/
def State.completeSlice (s : State) : State :=
  let next := s.nextSlice
  let s1 := { s with scrub := { s.scrub.spend with block := next.1, slice := next.2, word := 0 } }
  if s.passEnds then
    let s2 := { s1 with scrub := { s1.scrub with passes := s1.scrub.passes + 1 } }
    if s.scrub.passEvent then
      s2.post { kind := .scrubPass, source := .scrub, phys := none, logical := none, offset := none,
                detail := s.scrub.poisonedSeen }
    else s2
  else s1

/-- R106: a normal request is due, but for the skip rule. -/
def State.normalDue (s : State) : Bool :=
  s.dev.state == .ready && s.scrub.enable && s.scrub.backlog != 0 && s.scrub.range.isNone

/-- R107: the rest of a slice in a skipped block is passed over, slice after slice; `fuel` bounds the slices, each
of which spends a credit. -/
def skipSlices : Nat → State → State
  | 0, s => s
  | fuel + 1, s => if s.normalDue && s.skipped s.scrub.block then skipSlices fuel s.completeSlice else s

/-- R116: the range run has visited its last word: it ends and SCRUB_RANGE completes. -/
def State.endRange (s : State) : State :=
  let s1 := { s with scrub := { s.scrub with range := none } }
  match s.cmd.running with
  | some (.scrubRange _ _) => s1.complete .ok
  | _ => s1

/-- R116: the range cursor advances to `a`, the word before it being `prev`; after last × 256 + 255 the run ends. -/
def State.advanceRange (s : State) (r : RangeRun) (prev : Addr) : State :=
  if r.last ≤ blockOf prev ∧ offsetOf prev = 255 then s.endRange
  else { s with scrub := { s.scrub with range := some { r with cursor := prev + 1 } } }

/-- R115: every remaining word of a skipped block is passed over, block after block; `fuel` bounds the blocks. -/
def skipBlocks : Nat → State → State
  | 0, s => s
  | fuel + 1, s =>
    match s.scrub.range with
    | none => s
    | some r =>
      if s.dev.state == .ready && s.skipped (blockOf r.cursor) then
        skipBlocks fuel (s.advanceRange r (wordAddr (blockOf r.cursor) 255))
      else s

/-- The blocks a range run may still pass over. -/
def State.rangeFuel (s : State) : Nat :=
  match s.scrub.range with
  | some r => r.last.toNat + 1 - (blockOf r.cursor).toNat
  | none => 0

/-- R107, R115: what the engine passes over in an event, when no grant of its own is in progress. DESIGN CHOICE (log
30): a grant that SOFT_RESET took from the engine (R98) does not delay it, though R89 has the engine present no request
until that grant completes. -/
def State.scrubSettle (s : State) : State :=
  if s.scrub.holds then s
  else
    let s1 := skipBlocks s.rangeFuel s
    skipSlices s1.scrub.backlog.toNat s1

/-! ### Pacing (R109) -/

/-- R109: a credit is offered to the backlog. -/
def State.offerCredit (s : State) : State :=
  if s.scrub.backlog = 15 then
    let n := satInc s.scrub.lagCount
    let s1 := { s with scrub := { s.scrub with lagCount := n, inLag := true } }
    if s.scrub.inLag then s1
    else s1.post { kind := .scrubLag, source := .scrub, phys := some s.scrub.block, logical := none,
                   offset := none, detail := n }
  else
    let b := s.scrub.backlog + 1
    { s with scrub := { s.scrub with backlog := b, urgent := s.scrub.urgent || decide (s.scrub.urgentLevel ≤ b) } }

/-- R108, R109: the period timer expires. -/
def State.timerExpires (s : State) : State := s.clearTicks.offerCredit.scrubSettle

/-! ### The action on a word (R112, R113) -/

/-- R112: what a SCRUB_WORD grant writes back. -/
def scrubWriteback (poison : Bool) (r : DecodeResult) : Option Codeword :=
  match r.cls with
  | .clean => none
  | .corrected => some (freshWord r.data)
  | .uncorrectable => if poison then some poisonedWord else none
  | .poisoned => if r.correctedFlag then some poisonedWord else none

/-- R113 steps 1 and 2: the poisoned-seen count and the UNCORRECTABLE record. -/
def State.scrubCount (s : State) (a : Addr) (r : DecodeResult) (wrote : Bool) : State :=
  match r.cls with
  | .poisoned => { s with scrub := { s.scrub with poisonedSeen := satInc s.scrub.poisonedSeen } }
  | .uncorrectable =>
    s.post { kind := .uncorrectable, source := .scrub, phys := some (blockOf a), logical := s.servedBy (blockOf a),
             offset := some (offsetOf a), detail := if wrote then 1 else 0 }
  | _ => s

/-- R113 step 3: the hand-offs, made while the device is in READY (log 16). -/
def State.scrubHandOff (s : State) (a : Addr) (r : DecodeResult) : State :=
  if s.dev.state ≠ .ready then s
  else match s.roleOf (blockOf a), r.cls with
    | .spare k .free, .uncorrectable => s.condemn k .free .scrub
    | .copy c, .uncorrectable => s.dirFinding c
    | .copy c, .poisoned => s.dirFinding c
    | _, _ => s

/-- R113 step 4: the word position rises, or the range cursor advances. -/
def State.scrubProgress (s : State) (a : Addr) (range : Bool) : State :=
  if range then
    match s.scrub.range with
    | some r => s.advanceRange r a
    | none => s
  else if s.scrub.word = 15 then s.completeSlice
  else { s with scrub := { s.scrub with word := s.scrub.word + 1 } }

/-- R113: the engine acts on a result in its order; the fault table's report falls anywhere among its steps (log 8). -/
def State.scrubResult (s : State) (a : Addr) (range wrote : Bool) (r : DecodeResult) : State :=
  match reportOf a .scrub r with
  | some rep =>
    insertReport rep
      [fun x => x.scrubCount a r wrote, fun x => x.scrubHandOff a r, fun x => x.scrubProgress a range] s
  | none => ((s.scrubCount a r wrote).scrubHandOff a r).scrubProgress a range

/-- R176: in an event that ends a SCRUB_RANGE, its COMMAND_DONE joins before or after the other records of the event
(log 8). -/
def State.rangeEvent (s : State) (f : State → State) : State :=
  match s.cmd.running with
  | some (.scrubRange _ _) =>
    let s' := { s with choices := s.choices + 1 }
    let early := f (s'.complete .ok)
    if Config.eitherOrder s.choices && early.scrub.range.isNone then early else f s'
  | _ => f s

/-- The engine no longer waits for its grant. -/
def State.dropScrubGrant (s : State) : State := { s with scrub := { s.scrub with holds := false } }

/-- R112, R113, R98: a SCRUB_WORD grant completes. -/
def State.scrubDone (s : State) (a : Addr) (poison range : Bool) : State :=
  let r := decodeWord (s.cell a)
  let s1 := s.noteRead a
  let w := scrubWriteback poison r
  let s2 := match w with
    | some c => s1.writeCell a c
    | none => s1
  if s.scrub.holds then s2.dropScrubGrant.scrubResult a range w.isSome r
  else s2.reportOnly (reportOf a .scrub r)

/-! ### Settings (R118, R111) -/

/-- R118: SCRUB_CTRL. Clearing the enable stops the timer (R117). -/
def State.writeScrubCtrl (s : State) (v : Half) : State :=
  let s1 := { s with scrub := { s.scrub with
    enable := v.getLsbD 0, poisonOnScrub := v.getLsbD 1, passEvent := v.getLsbD 2,
    ticks := if v.getLsbD 0 then s.scrub.ticks else 0 } }
  s1.scrubSettle

/-- R108: SCRUB_PERIOD. -/
def State.writeScrubPeriod (s : State) (v : Half) : State :=
  { s with scrub := { s.scrub with period := v, ticks := 0 } }

/-- R111: the level a written value is taken as. -/
def urgentLevelTaken (v : Half) : BitVec 4 :=
  let l := v.extractLsb' 8 4
  if l.toNat < 2 then 2 else l

/-- R111: SCRUB_STATUS. -/
def State.writeScrubStatus (s : State) (v : Half) : State :=
  let l := urgentLevelTaken v
  { s with scrub := { s.scrub with
    urgentLevel := l
    urgent := if l ≤ s.scrub.backlog then true
      else if s.scrub.backlog ≤ l >>> 1 then false
      else s.scrub.urgent } }

end Sys2Proof.Machine
end

