-- ==== Sys2Proof/Machine/Channels.lean ====
section
/-! DEFINITION. The access channels: CTRL, pointer and data registers, held cycles, faults (chapter 4). -/

namespace Sys2Proof.Machine

/-! ### Window and step (R56) -/

/-- The first word of the window. -/
def Channel.firstWord (c : Channel) : Addr := wordAddr c.winFirst 0
/-- The last word of the window. -/
def Channel.lastWord (c : Channel) : Addr := wordAddr c.winLast 255
/-- An address lies inside the window. -/
def Channel.inWindow (c : Channel) (a : Addr) : Bool := decide (c.firstWord ≤ a) && decide (a ≤ c.lastWord)
/-- The far edge: where the pointer arrives last. -/
def Channel.farEdge (c : Channel) : Addr := match c.step with
  | .up => c.lastWord
  | .down => c.firstWord
/-- The near edge. -/
def Channel.nearEdge (c : Channel) : Addr := match c.step with
  | .up => c.firstWord
  | .down => c.lastWord
/-- An address moved by +1 or −1; what lies beyond the 20-bit range is open (log 9). -/
def Channel.moved (c : Channel) (a : Addr) : Addr := match c.step with
  | .up => if a = BitVec.allOnes 20 then Config.steppedPastRange a else a + 1
  | .down => if a = 0 then Config.steppedPastRange a else a - 1
/-- R56: an address stepped; `none` at the far edge under STOP. -/
def Channel.stepped (c : Channel) (a : Addr) : Option Addr :=
  if a = c.farEdge then (match c.policy with
    | .wrap => some c.nearEdge
    | .stop => none)
  else some (c.moved a)

/-- A READ or RAW_READ channel. -/
def Channel.reads (c : Channel) : Bool := c.mode == .read || c.mode == .rawRead
/-- The read-ahead queue discarded; a fetch in progress is no longer held (R63). -/
def Channel.discard (c : Channel) : Channel :=
  { c with readAhead := [], holds := if c.reads then false else c.holds }
/-- The channel enters FAULT. -/
def Channel.fault (c : Channel) (k : FaultKind) (a : Addr) : Channel :=
  { c with state := .faulted, faultKind := k, faultAddr := a }

/-! ### Opening, closing, resuming (R58 to R60, R75, R76) -/

/-- R59, R181, R203: the first condition of an open that fails. In MOUNTING and FORMATTING every open of a CLOSED channel
is refused with DEVICE_STATE, as R203 and R181 say, a raw open with RAW_ENABLE clear too. DEDUCED (log 31): there those
words stand before the order of R59's table. -/
def State.openCheck (s : State) (c : Channel) : Option RefuseReason :=
  let raw := c.mode == .rawRead || c.mode == .rawWrite
  let stateOk := match c.mode with
    | .read => s.dev.state == .ready
    | .write => s.dev.state == .ready
    | .rawRead => s.dev.state == .ready || s.dev.state == .unformatted || s.dev.state == .foreign
    | .rawWrite => s.dev.state == .unformatted || s.dev.state == .foreign
  let mountOrFormat := s.dev.state == .mounting || s.dev.state == .formatting
  let limit := if raw then s.physBlocks else s.logicalBlocks
  if c.state ≠ .closed then some .notClosed
  else if raw && !s.diag.rawEnable && !mountOrFormat then some .rawDisabled
  else if !stateOk then some .deviceState
  else if !(decide (c.winFirst ≤ c.winLast) && decide (c.winLast.toNat < limit)) then some .window
  else if !c.inWindow c.pointer then some .pointer
  else none

/-- R60: an open is taken. -/
def Channel.openTaken (c : Channel) : Channel :=
  { c with
    state := .opened, readAhead := [], writeQ := [], faultKind := .noFault, faultAddr := 0,
    writeIgnored := false, openRefused := none,
    fetchPtr := if c.reads then some c.pointer else c.fetchPtr }

/-- R59: an open is requested. -/
def State.requestOpen (s : State) (n : Fin 4) : State :=
  match s.openCheck (s.chan n) with
  | some reason => s.setChan n { s.chan n with openRefused := some reason }
  | none => s.setChan n (s.chan n).openTaken

/-- R76: a close. -/
def Channel.close (c : Channel) : Channel :=
  { c.discard with state := if c.writeQ.isEmpty then .closed else .draining }

/-- R75 step 3: the state after a RESUME that put the pointer at `a`. -/
def Channel.resumeAt (c : Channel) (a : Addr) : Channel :=
  let c1 := { c.discard with pointer := a }
  if c.inWindow a then
    { c1 with state := .opened, faultKind := .noFault, fetchPtr := if c.reads then some a else c.fetchPtr }
  else c1.fault .pointerOutside a

/-- R75: RESUME RETRY. -/
def Channel.retry (c : Channel) : Channel := c.resumeAt c.faultAddr

/-- R75: RESUME SKIP. -/
def Channel.skip (c : Channel) : Channel :=
  match c.stepped c.faultAddr with
  | some a => c.resumeAt a
  | none => { c.discard with pointer := c.faultAddr, state := .ended }

/-- R58: a write of CTRL. -/
def State.writeCtrl (s : State) (n : Fin 4) (v : Half) : State :=
  let c := s.chan n
  if s.dev.state = .fenced then s
  else match c.state with
    | .closed =>
      let s1 := s.setChan n (c.loadSettings v)
      if ctrlOpenBit v then s1.requestOpen n else s1
    | .opened => if ctrlOpenBit v then s else s.setChan n c.close
    | .ended => if ctrlOpenBit v then s else s.setChan n c.close
    | .faulted =>
      if ctrlOpenBit v then match ctrlResume v with
        | .noResume => s
        | .retry => s.setChan n c.retry
        | .skip => s.setChan n c.skip
      else s.setChan n c.close
    | .draining => if ctrlOpenBit v then s.requestOpen n else s

/-! ### Pointer and window registers (R56, R57, R61) -/

/-- R61: a pointer write in OPEN, END or FAULT. -/
def Channel.movePointer (c : Channel) (a : Addr) : Channel :=
  let c1 := { c.discard with pointer := a, fetchPtr := some a }
  match c.state with
  | .opened => if c.inWindow a then c1 else c1.fault .pointerOutside a
  | .ended => if c.inWindow a then { c1 with state := .opened } else c1.fault .pointerOutside a
  | .faulted => if c.inWindow a then { c1 with faultAddr := a } else c1.fault .pointerOutside a
  | .closed => { c with pointer := a }
  | .draining => { c with pointer := a }

/-- R57: the address a PTR_LO write forms. -/
def Channel.formed (c : Channel) (v : Half) : Addr := c.ptrHigh ++ v

/-- R57: a PTR_LO write. -/
def State.writePtrLo (s : State) (n : Fin 4) (v : Half) : State :=
  if s.dev.state = .fenced then s else s.setChan n ((s.chan n).movePointer ((s.chan n).formed v))

/-- R57: a PTR_HI write loads the stage (in FENCED too: log 17). -/
def State.writePtrHi (s : State) (n : Fin 4) (v : Half) : State :=
  s.setChan n { s.chan n with ptrHigh := v.extractLsb' 0 4 }

/-- R56: a WIN_FIRST write. -/
def State.writeWinFirst (s : State) (n : Fin 4) (v : Half) : State :=
  if (s.chan n).state = .closed ∧ s.dev.state ≠ .fenced then
    s.setChan n { s.chan n with winFirst := v.extractLsb' 0 12 }
  else s

/-- R56: a WIN_LAST write. -/
def State.writeWinLast (s : State) (n : Fin 4) (v : Half) : State :=
  if (s.chan n).state = .closed ∧ s.dev.state ≠ .fenced then
    s.setChan n { s.chan n with winLast := v.extractLsb' 0 12 }
  else s

/-- R194: a STATUS write. -/
def State.writeStatus (s : State) (n : Fin 4) (v : Half) : State :=
  s.setChan n { s.chan n with view := if v.getLsbD 0 then .faultAddress else .pointer, writeIgnored := false }

/-! ### Reading (R64 to R67) -/

/-- The fault kind of a mark (R64). -/
def markKind (m : ReadMark) : FaultKind :=
  match m with
  | .uncorrectable => .uncorrectable
  | .poisoned => .poisoned

/-- The event kind of a mark (R64, R74). -/
def markEvent (m : ReadMark) : EventKind :=
  match m with
  | .uncorrectable => .uncorrectable
  | .poisoned => .poisonRead

/-- The record a channel posts (R64 detail 0, R74 detail 1). -/
def channelRecord (n : Fin 4) (m : ReadMark) (phys : Option Block) (a : Addr) (detail : Half) : EventRecord :=
  { kind := markEvent m, source := hostSource n, phys := phys, logical := some (blockOf a),
    offset := some (offsetOf a), detail := detail }

/-- R64: when the head of an OPEN channel carries a fault mark, the channel enters FAULT and posts. -/
def State.checkHead (s : State) (n : Fin 4) : State :=
  let c := s.chan n
  if c.state = .opened then
    match c.readAhead with
    | e :: _ =>
      match e.mark with
      | some m =>
        (s.setChan n (c.fault (markKind m) c.pointer)).post (channelRecord n m e.phys c.pointer 0)
      | none => s
    | [] => s
  else s

/-- R66: the head entry is consumed. -/
def State.consume (s : State) (n : Fin 4) : State :=
  let c := s.chan n
  let c1 := { c with readAhead := c.readAhead.tail }
  let c2 := match c.stepped c.pointer with
    | some a => { c1 with pointer := a }
    | none => { c1 with state := .ended }
  (s.setChan n c2).checkHead n

/-- R10: DIAG's side bits are loaded from a raw entry delivered. -/
def State.loadSide (s : State) (side : Option Side) : State :=
  match side with
  | some x => { s with diag := { s.diag with side := x } }
  | none => s

/-- The value a read cycle places on D[15:0]. -/
def State.answer (s : State) (v : Half) : State := { s with host := { s.host with readData := v } }

/-- R65: a half of the head entry is delivered; DATA_HI consumes. -/
def State.deliver (s : State) (n : Fin 4) (high : Bool) (e : ReadEntry) : State :=
  let s1 := (s.answer (if high then highHalf e.data else lowHalf e.data)).loadSide e.side
  if high then s1.consume n else s1

/-- R70: a cycle is held. -/
def State.hold (s : State) (n : Fin 4) (high : Bool) (w : Option Half) : State :=
  { s with host := { s.host with held := some { chan := n, high := high, write := w, ticks := 0 } } }

/-- R65, R67, R86: a read of a data register. -/
def State.readDataReg (s : State) (n : Fin 4) (high : Bool) : State :=
  let c := s.chan n
  if s.dev.state = .fenced then s.answer 0
  else if c.reads then
    if c.state = .opened then
      match c.readAhead with
      | e :: _ => s.deliver n high e
      | [] => s.hold n high none
    else s.answer 0
  else s.answer (if high then 0 else c.staging)

/-! ### Writing (R68 to R72, R77, R80) -/

/-- A write-queue entry carries a logical address: every kind but RAW (R77, R78). -/
def WriteEntry.isLogical (e : WriteEntry) : Bool :=
  match e.value with
  | .raw _ _ => false
  | _ => true

/-- R80: a READ channel drops what it fetched of a logical word that another channel's write was accepted for. -/
def Channel.dropWord (c : Channel) (a : Addr) : Channel :=
  if c.mode = .read then
    match c.readAhead.findIdx? fun e => e.addr == a with
    | some i => { c with readAhead := c.readAhead.take i, fetchPtr := some a, holds := false }
    | none => if c.fetchPtr = some a then { c with holds := false } else c
  else c

/-- R80: every other channel drops the word. -/
def State.dropOthers (s : State) (n : Fin 4) (a : Addr) : State :=
  { s with chans := s.chans.mapFinIdx fun i c _ => if i = n.val then c else c.dropWord a }

/-- R69: a write is accepted. -/
def State.accept (s : State) (n : Fin 4) (v : WriteValue) : State :=
  let c := s.chan n
  let e : WriteEntry := { addr := c.pointer, value := v, pos := s.nextPos }
  let s1 := if e.isLogical then s.dropOthers n c.pointer else s
  let c1 := { c with writeQ := c.writeQ ++ [e] }
  let c2 := match c.stepped c.pointer with
    | some a => { c1 with pointer := a }
    | none => { c1 with state := .ended }
  { s1.setChan n c2 with nextPos := s.nextPos + 1 }

/-- What a write of a data register means to a channel in OPEN (R68, R82). -/
inductive WriteMeaning where
  | ignore
  | stage (v : Half)
  | offer (v : WriteValue)
  deriving DecidableEq, Repr

/-- R68, R82: the meaning of a data-register write by mode and width. -/
def Channel.writeMeaning (c : Channel) (side : Side) (high : Bool) (v : Half) : WriteMeaning :=
  match c.mode, c.width, high with
  | .read, _, _ => .ignore
  | .rawRead, _, _ => .ignore
  | .rawWrite, _, false => .stage v
  | .rawWrite, _, true => .offer (.raw (joinHalves v c.staging) side)
  | .write, .word, false => .stage v
  | .write, .word, true => .offer (.word (joinHalves v c.staging))
  | .write, .halfLow, false => .offer (.halfLow v)
  | .write, .halfLow, true => .ignore
  | .write, .halfHigh, false => .ignore
  | .write, .halfHigh, true => .offer (.halfHigh v)

/-- R72: a data-register write is ignored. -/
def State.ignoreWrite (s : State) (n : Fin 4) : State := s.setChan n { s.chan n with writeIgnored := true }

/-- R68, R70, R72, R86: a write of a data register. -/
def State.writeDataReg (s : State) (n : Fin 4) (high : Bool) (v : Half) : State :=
  let c := s.chan n
  if s.dev.state = .fenced then s.ignoreWrite n
  else if c.state ≠ .opened then s.ignoreWrite n
  else match c.writeMeaning s.diag.side high v with
    | .ignore => s.ignoreWrite n
    | .stage h => s.setChan n { c with staging := h }
    | .offer w => if c.writeQ.length < 4 then s.accept n w else s.hold n high (some v)

/-! ### The end of a held cycle (R70, R71) -/

/-- The held cycle's record is cleared and WAIT deasserted (R191). -/
def State.unhold (s : State) : State := { s with host := { s.host with held := none } }

/-- R70: the held cycle ends when its ending is due in this state; otherwise it stays held. -/
def State.settleHeld (s : State) : State :=
  match s.host.held with
  | none => s
  | some h =>
    let c := s.chan h.chan
    match h.write with
    | none =>
      if s.dev.state = .fenced ∨ c.state ≠ .opened then s.unhold.answer 0
      else match c.readAhead with
        | e :: _ => s.unhold.deliver h.chan h.high e
        | [] => s
    | some v =>
      if s.dev.state = .fenced ∨ c.state ≠ .opened then s.unhold.ignoreWrite h.chan
      else match c.writeMeaning s.diag.side h.high v with
        | .offer w => if c.writeQ.length < 4 then s.unhold.accept h.chan w else s
        | _ => s

/-- R70: nRESET ends the held cycle: a read returns 0x0000, a write is not accepted. -/
def State.endHeld (s : State) : State :=
  match s.host.held with
  | some h => if h.write.isNone then s.unhold.answer 0 else s.unhold
  | none => s

/-- R71: the wait limit expires on the held cycle. -/
def State.expireWait (s : State) : State :=
  match s.host.held with
  | none => s
  | some h =>
    let c := s.chan h.chan
    match h.write with
    | none => (s.unhold.answer 0).setChan h.chan (c.discard.fault .waitExpired c.pointer)
    | some _ => s.unhold.setChan h.chan (c.fault .waitExpired c.pointer)

/-! ### Completions at the channel (R63, R73, R74) -/

/-- The channel no longer waits for its grant. -/
def State.dropGrant (s : State) (n : Fin 4) : State := s.setChan n { s.chan n with holds := false }

/-- R63: whether a completed fetch still serves the channel. -/
def Channel.wantsFetch (c : Channel) : Bool := c.holds && c.reads && c.state == .opened

/-- R63: a fetch completes at the channel with the entry it read. -/
def State.fetchArrives (s : State) (n : Fin 4) (e : ReadEntry) : State :=
  let c := s.chan n
  if c.wantsFetch then
    let c1 := { c with readAhead := c.readAhead ++ [e], fetchPtr := c.stepped e.addr, holds := false }
    ((s.setChan n c1).checkHead n).settleHeld
  else s.dropGrant n

/-- R76: a DRAINING channel whose write queue is empty becomes CLOSED. -/
def State.drained (s : State) (n : Fin 4) : State :=
  let c := s.chan n
  if c.state = .draining ∧ c.writeQ = [] then s.setChan n { c with state := .closed } else s

/-- R73: the head entry leaves the write queue. -/
def State.popEntry (s : State) (n : Fin 4) : State :=
  let c := s.chan n
  s.setChan n { c with writeQ := c.writeQ.tail, holds := false }

/-- R73: a write completes its entry. -/
def State.entryLeaves (s : State) (n : Fin 4) : State :=
  if (s.chan n).holds then ((s.popEntry n).drained n).settleHeld else s

/-- R74: a refused merge removes its entry and may put the channel in FAULT. -/
def State.mergeRefused (s : State) (n : Fin 4) (a : Addr) (phys : Block) (m : ReadMark) : State :=
  if (s.chan n).holds then
    let s1 := s.popEntry n
    let c := s1.chan n
    let s2 := if c.state = .opened ∨ c.state = .ended then s1.setChan n (c.fault .mergeRefused a) else s1.drained n
    (s2.post (channelRecord n m (some phys) a 1)).settleHeld
  else s

end Sys2Proof.Machine
end

