-- ==== Sys2Proof/Machine/Filler.lean ====
section
/-! DEFINITION. The format filler: stages, copies, the end of FORMAT (R53, R178 to R180). -/

namespace Sys2Proof.Machine

/-- R178: the filler at the entry into FORMATTING. -/
def Filler.start : Filler :=
  { stage := .zero, addr := 0, word := 0, phase := .writing, attempt := 1, wroteA := false, wroteB := false }

/-- R53: the content of the copy that FORMAT writes: no entries, every spare FREE. -/
def State.formatRecord (s : State) (gen : Word) : Snapshot :=
  { gen := gen, blocks := s.physBlocks, entries := [],
    spares := List.replicate s.spareCount .free, included := none }

/-- The copy of a copy stage and its content: generation 1 for A, 2 for B (R179). -/
def State.fillerCopy (s : State) (f : Filler) : Copy × Snapshot :=
  match f.stage with
  | .copyB => (.b, s.formatRecord 2)
  | _ => (.a, s.formatRecord 1)

/-- The last word FILL writes: (P − 2) × 256 − 1 (R179). -/
def State.lastFill (s : State) : Addr := BitVec.ofNat 20 ((s.physBlocks - 2) * 256 - 1)

/-- R178: the entry into FORMATTING, with S. -/
def State.enterFormatting (s : State) (spares : Nat) : State :=
  { s with
    dev := { s.dev with state := .formatting, dirReadonly := false }
    map := { loaded := true, spares := List.replicate spares .free, remap := [] }
    dir := { s.dir with gen := 0, copyA := ⟨false, 0⟩, copyB := ⟨false, 0⟩, pendingFlag := false, target := none,
                        snapshot := none, word := 0, closing := false }
    faults := FaultTable.empty
    mig := { s.mig with queue := [] }
    scrub := { s.scrub with ticks := 0, block := 0, slice := 0, word := 0 }
    filler := some Filler.start }

/-- R180: the result of FORMAT by the copies written. -/
def formatResult (a b : Bool) : Result :=
  if a && b then .ok else if a || b then .okDegraded else .dirFail

/-- R53, R180: the mount outcome shown by the copies written. -/
def formatOutcome (a b : Bool) : MountOutcome :=
  if a && b then .mounted else if a || b then .mountedSingle else .unformatted

/-- R53: G by the copies written. -/
def formatGen (a b : Bool) : Word := if b then 2 else if a then 1 else 0

/-- R180: FORMAT ends. DESIGN CHOICE (log 29): the fault table is emptied here once more, so that it is empty when
FORMAT ends (R136, R179) though a grant made before FORMATTING sent its report into it (R96, R98, R117). -/
def State.endFormat (s : State) (f : Filler) : State :=
  let any := f.wroteA || f.wroteB
  let s1 := ({ s with
    dev := { s.dev with
      state := if any then .ready else .unformatted
      outcome := formatOutcome f.wroteA f.wroteB
      dirReadonly := any && !(f.wroteA && f.wroteB) }
    map := if any then s.map else BlockMap.empty
    dir := { s.dir with
      gen := formatGen f.wroteA f.wroteB
      copyA := if f.wroteA then ⟨true, 1⟩ else ⟨false, 0⟩
      copyB := if f.wroteB then ⟨true, 2⟩ else ⟨false, 0⟩ }
    faults := FaultTable.empty
    filler := none } : State).clearTicks
  match s1.cmd.running with
  | some (.format _) => s1.complete (formatResult f.wroteA f.wroteB)
  | _ => s1

/-- R179: the filler goes on from a copy stage to the next stage, or ends. -/
def State.nextCopyStage (s : State) (f : Filler) : State :=
  match f.stage with
  | .copyA => { s with filler := some { f with stage := .copyB, word := 0, phase := .writing, attempt := 1 } }
  | _ => s.endFormat f

/-- R179: a copy is written. -/
def Filler.markWritten (f : Filler) : Filler :=
  match f.stage with
  | .copyA => { f with wroteA := true }
  | .copyB => { f with wroteB := true }
  | _ => f

/-- R179: a FILL grant has completed. -/
def State.fillAdvance (s : State) : State :=
  match s.filler with
  | some f =>
    if f.addr = s.lastFill then
      { s with filler := some { f with stage := .copyA, word := 0, phase := .writing, attempt := 1 } }
    else { s with filler := some { f with addr := f.addr + 1 } }
  | none => s

/-- R179: a WORD_WRITE grant of the filler has completed: ZERO, a directory word, or a closing write. -/
def State.fillerWritten (s : State) : State :=
  match s.filler with
  | some f =>
    match f.stage with
    | .zero =>
      if f.word = 0 then { s with filler := some { f with word := 1 } }
      else { s with filler := some { f with stage := .fill, addr := 0, word := 0 } }
    | .fill => s
    | _ =>
      match f.phase with
      | .writing =>
        if f.word = 255 then { s with filler := some { f with word := 0, phase := .readback } }
        else { s with filler := some { f with word := f.word + 1 } }
      | .closing => s.nextCopyStage f.markWritten
      | .readback => s
  | none => s

/-- R179 (with R45, R46): a readback read of the filler has completed. -/
def State.fillerReadBack (s : State) (r : DecodeResult) : State :=
  match s.filler with
  | some f =>
    if readbackPasses r ((s.fillerCopy f).2.attemptWord f.word.toNat) then
      if f.word = 255 then { s with filler := some { f with phase := .closing } }
      else { s with filler := some { f with word := f.word + 1 } }
    else if f.attempt < 3 then
      { s with filler := some { f with attempt := f.attempt + 1, word := 0, phase := .writing } }
    else s.nextCopyStage f
  | none => s

end Sys2Proof.Machine
end

