-- ==== Sys2Proof/Machine/Mount.lean ====
section
/-! DEFINITION. The mount: folding the words of a copy, verdicts, the outcome, loading (R34 to R40, R28). -/

namespace Sys2Proof.Machine

/-! ### Reading a copy (R36) -/

/-- R36: a decode result folded into the tests of its copy; words 0 … 67 are kept. -/
def CopyFold.add (f : CopyFold) (i : Nat) (r : DecodeResult) : CopyFold :=
  { allGood := f.allGood && r.good
    sum := f.sum + r.data
    words := if i < 68 then f.words ++ [r.data] else f.words }

/-- The word a copy was read with at position i. -/
def CopyFold.word (f : CopyFold) (i : Nat) : Word := f.words.getD i 0

/-- The stored generation (R201). -/
def CopyFold.gen (f : CopyFold) : Word := f.word 1
/-- The stored P. -/
def CopyFold.storedP (f : CopyFold) : Nat := ((f.word 2).extractLsb' 0 16).toNat
/-- The stored S. -/
def CopyFold.storedS (f : CopyFold) : Nat := ((f.word 2).extractLsb' 16 8).toNat
/-- The format version. -/
def CopyFold.version (f : CopyFold) : BitVec 8 := (f.word 2).extractLsb' 24 8
/-- The entry count N. -/
def CopyFold.count (f : CopyFold) : Nat := (f.word 3).toNat
/-- The stored L, P − 2 − S. -/
def CopyFold.storedL (f : CopyFold) : Nat := f.storedP - 2 - f.storedS

/-- The remap entry an entry word names (R201). -/
def entryOfWord (w : Word) : RemapEntry :=
  { logical := w.extractLsb' 0 12, spare := (w.extractLsb' 16 5).toNat }

/-- The entries of a copy, in stored order. -/
def CopyFold.entries (f : CopyFold) : List RemapEntry :=
  (List.range f.count).map fun i => entryOfWord (f.word (4 + i))

/-- The state a spare-state word gives (R28, R201). -/
def spareOfWord (w : Word) : SpareState :=
  if w = 1 then .inUse else if w = 2 then .condemned else .free

/-- The spare states of a copy. -/
def CopyFold.spares (f : CopyFold) : List SpareState :=
  (List.range f.storedS).map fun k => spareOfWord (f.word (36 + k))

/-! ### The tests (R34) -/

/-- T6: N ≤ S ≤ 32. -/
def CopyFold.t6 (f : CopyFold) : Bool := decide (f.count ≤ f.storedS) && decide (f.storedS ≤ 32)
/-- T7: the stored P is a real array size. -/
def CopyFold.t7 (f : CopyFold) : Bool := [512, 1024, 2048, 4096].contains f.storedP

/-- T8, one entry word: valid mark, no bit outside the fields, logical block below L, spare index below S. -/
def CopyFold.entryOk (f : CopyFold) (w : Word) : Bool :=
  w.getLsbD 31 && (w &&& 0x7FE0F000) == 0 && decide ((entryOfWord w).logical.toNat < f.storedL) &&
    decide ((entryOfWord w).spare < f.storedS)

/-- T8. -/
def CopyFold.t8 (f : CopyFold) : Bool :=
  ((List.range 32).all fun i => if i < f.count then f.entryOk (f.word (4 + i)) else f.word (4 + i) == 0) &&
  decide (f.entries.map (·.logical)).Nodup && decide (f.entries.map (·.spare)).Nodup

/-- T9. -/
def CopyFold.t9 (f : CopyFold) : Bool :=
  ((List.range 32).all fun k =>
    if k < f.storedS then decide ((f.word (36 + k)).toNat ≤ 2) else f.word (36 + k) == 0) &&
  f.entries.all fun e => f.word (36 + e.spare) == 1

/-- T10. -/
def CopyFold.t10 (f : CopyFold) : Bool :=
  ((List.range f.storedS).filter fun k => f.word (36 + k) == 1).length == f.count

/-- R34, T1 to T10. -/
def CopyFold.sound (f : CopyFold) : Bool :=
  f.allGood && f.word 0 == signature && f.version == 1 && f.sum == 0 && f.gen != 0 && f.t6 && f.t7 && f.t8 && f.t9 &&
    f.t10

/-- R34: the verdict on a copy, T11 last. -/
def CopyFold.verdict (f : CopyFold) (blocks : Nat) : Verdict :=
  if f.sound then (if f.storedP = blocks then .valid else .foreign) else .invalid

/-! ### The outcome (R37) -/

/-- R37: the outcome of a mount and the copy used or reported. -/
def mountChoice (va vb : Verdict) (ga gb : Word) : MountOutcome × Option Copy :=
  match va, vb with
  | .valid, .valid => (.mounted, some (if ga < gb then .b else .a))
  | .valid, .foreign => (.mountedSingle, some .a)
  | .valid, .invalid => (.mountedSingle, some .a)
  | .foreign, .valid => (.mountedSingle, some .b)
  | .invalid, .valid => (.mountedSingle, some .b)
  | .foreign, .invalid => (.foreign, some .a)
  | .invalid, .foreign => (.foreign, some .b)
  | .foreign, .foreign => (.foreign, some (if ga < gb then .b else .a))
  | .invalid, .invalid => (.unformatted, none)

/-- R198: the code of a mount outcome. -/
def outcomeCode (o : MountOutcome) : BitVec 2 :=
  match o with
  | .unformatted => 0
  | .mounted => 1
  | .mountedSingle => 2
  | .foreign => 3

/-- The tests of a copy. -/
def MountReader.fold (m : MountReader) (c : Copy) : CopyFold :=
  match c with
  | .a => m.foldA
  | .b => m.foldB

/-- R38 step 1, one copy: valid with its stored generation, or invalid. -/
def knownOf (v : Verdict) (f : CopyFold) : CopyKnown :=
  if v = .valid then { valid := true, gen := f.gen } else { valid := false, gen := 0 }

/-- R38 step 1 (with R28): the map and the commit unit's knowledge from the copy used. -/
def State.loadCopy (s : State) (c : Copy) : State :=
  let f := s.mount.fold c
  { s with
    map := { loaded := true, spares := f.spares, remap := f.entries }
    dir := { s.dir with
      copyA := knownOf (s.mount.foldA.verdict s.physBlocks) s.mount.foldA
      copyB := knownOf (s.mount.foldB.verdict s.physBlocks) s.mount.foldB
      gen := f.gen } }

/-- R38 step 3: the MOUNT_DONE record. -/
def State.mountRecord (s : State) (o : MountOutcome) (c : Option Copy) : EventRecord :=
  { kind := .mountDone, source := .mount
    phys := c.map s.copyBlock
    logical := if o = .foreign then c.map fun x => BitVec.ofNat 12 (s.mount.fold x).storedL else none
    offset := if o = .foreign then c.map fun x => BitVec.ofNat 8 (s.mount.fold x).storedS else none
    detail := (outcomeCode o).setWidth 16 }

/-- R38 step 4: the device state an outcome leads to. -/
def stateOfOutcome (o : MountOutcome) : DevState :=
  match o with
  | .unformatted => .unformatted
  | .mounted => .ready
  | .mountedSingle => .ready
  | .foreign => .foreign

/-- R38 step 4: the device leaves MOUNTING; in READY the timer starts from 0 (R117); a REMOUNT completes (R182). -/
def State.leaveMounting (s : State) (o : MountOutcome) : State :=
  let s1 := ({ s with dev := { s.dev with state := stateOfOutcome o } } : State).clearTicks
  match s1.cmd.running with
  | some .remount => s1.complete .ok
  | _ => s1

/-- R38: mount completion. -/
def State.mountComplete (s : State) : State :=
  let vd := mountChoice (s.mount.foldA.verdict s.physBlocks) (s.mount.foldB.verdict s.physBlocks)
    s.mount.foldA.gen s.mount.foldB.gen
  let o := vd.1
  let s1 := if o = .mounted ∨ o = .mountedSingle then (match vd.2 with
    | some c => s.loadCopy c
    | none => s) else s
  let s2 := { s1 with dev := { s1.dev with outcome := o }, mount := { s1.mount with running := false } }
  let s3 := (s2.post (s2.mountRecord o vd.2)).leaveMounting o
  if o = .mountedSingle then s3.requestCommit else s3

/-- R36: the result of a read folded in; after the 512th, the mount completes. -/
def State.mountResult (s : State) (r : DecodeResult) : State :=
  let i := s.mount.word
  let o := (i.extractLsb' 0 8).toNat
  let m := if i.getLsbD 8 then { s.mount with foldB := s.mount.foldB.add o r }
    else { s.mount with foldA := s.mount.foldA.add o r }
  let s1 := { s with mount := { m with word := i + 1, holds := false } }
  if i = BitVec.allOnes 9 then s1.mountComplete else s1

/-- The copy and offset of the word the reader reads next (R36). -/
def MountReader.nextCopy (m : MountReader) : Copy := if m.word.getLsbD 8 then .b else .a

/-- R35: the start of a mount. -/
def State.startMount (s : State) : State :=
  { s with
    map := BlockMap.empty
    dir := CommitUnit.reset
    faults := FaultTable.empty
    mig := { s.mig with queue := [], flight := none }
    mount := MountReader.start
    filler := none
    dev := { s.dev with state := .mounting }
    scrub := { s.scrub with ticks := 0 } }

/-- R36, R98: a read of the mount reader completes. -/
def State.mountReadDone (s : State) (a : Addr) : State :=
  let r := decodeWord (s.cell a)
  let s1 := s.noteRead a
  if s.mount.holds then s1.withReport (reportOf a .mount r) fun x => x.mountResult r
  else s1.reportOnly (reportOf a .mount r)

end Sys2Proof.Machine
end

