-- ==== Sys2Proof/Machine/Port.lean ====
section
/-! DEFINITION. The memory port: requests, the grant decision, address resolution, completions; the migration engine's
own grants (chapter 5, R144 to R149). -/

namespace Sys2Proof.Machine

/-! ### Requests (R89) -/

/-- R78: a write to the logical word waits in some channel's write queue. -/
def State.wordQueued (s : State) (a : Addr) : Bool :=
  s.chans.toList.any fun c => c.writeQ.any fun e => e.isLogical && e.addr == a

/-- R79: another channel's queue holds an earlier accepted write to the same logical word. -/
def State.earlierQueued (s : State) (n : Fin 4) (e : WriteEntry) : Bool :=
  e.isLogical && (List.finRange 4).any fun m =>
    m != n && (s.chan m).writeQ.any fun x => x.isLogical && x.addr == e.addr && decide (x.pos < e.pos)

/-- R62: the fetch a READ or RAW_READ channel offers. -/
def State.fetchOffer (s : State) (n : Fin 4) : Option Addr :=
  let c := s.chan n
  if c.reads && c.state == .opened && decide (c.readAhead.length < 2) then
    match c.fetchPtr with
    | some a => if c.mode == .read && s.wordQueued a then none else some a
    | none => none
  else none

/-- R73: the head entry a WRITE or RAW_WRITE channel offers. -/
def State.writeOffer (s : State) (n : Fin 4) : Option WriteEntry :=
  let c := s.chan n
  if c.reads then none
  else match c.writeQ with
    | e :: _ => if s.earlierQueued n e then none else some e
    | [] => none

/-- R89: channel n presents a request. -/
def State.chanRequests (s : State) (n : Fin 4) : Bool := (s.fetchOffer n).isSome || (s.writeOffer n).isSome

/-- R91: the first channel with a request, from the round-robin pointer upwards. -/
def State.hostChoice (s : State) : Option (Fin 4) :=
  [s.port.rr, s.port.rr + 1, s.port.rr + 2, s.port.rr + 3].find? fun n => s.chanRequests n

/-- R144, R147: the migration engine presents a request in COPY and VERIFY. -/
def State.migRequests (s : State) : Bool := s.mig.flight.any fun m => m.phase != .commitWait

/-- R41: the commit unit presents a request in WRITING and READBACK. -/
def State.commitRequests (s : State) : Bool := s.dev.state == .ready && s.dir.state != .idle

/-- R36: the mount reader presents a request. -/
def State.mountRequests (s : State) : Bool := s.dev.state == .mounting && !s.dev.inReset && s.mount.running

/-- R179: the format filler presents a request. -/
def State.fillerRequests (s : State) : Bool := s.dev.state == .formatting && s.filler.isSome

/-- R106, R115: the word a scrub request names, and whether it is for a range run. -/
def State.scrubOffer (s : State) : Option (Addr × Bool) :=
  if s.dev.state != .ready then none
  else match s.scrub.range with
    | some r => if s.skipped (blockOf r.cursor) then none else some (r.cursor, true)
    | none =>
      if s.normalDue && !s.skipped s.scrub.block then some (s.scrub.wordAddr, false) else none

/-- R90: whether a scrub request is at SCRUB_URGENT. -/
def State.scrubUrgent (s : State) : Bool := s.scrub.urgent || s.scrub.range.isSome

/-- R90, R92: the class the arbiter grants, among the requests present. -/
def State.classChoice (s : State) : Option GrantClass :=
  if s.mountRequests || s.fillerRequests then some .exclusive
  else if s.commitRequests then some .commit
  else if s.scrubOffer.isSome && s.scrubUrgent then some .scrubUrgent
  else if s.migRequests && s.port.aging == 16 then some .migrate
  else if s.hostChoice.isSome then some .host
  else if s.migRequests then some .migrate
  else if s.scrubOffer.isSome then some .scrubIdle
  else none

/-- R92: the aging count after a decision. -/
def agingAfter (k : GrantClass) (migPresent : Bool) (aging : Nat) : Nat :=
  if !migPresent then 0
  else match k with
    | .host => if aging < 16 then aging + 1 else 16
    | .migrate => 0
    | .exclusive => aging
    | .commit => aging
    | .scrubUrgent => aging
    | .scrubIdle => aging

/-! ### Resolution (R24, R26, R93) -/

/-- R26: the mirror cursor. -/
def Migration.mirrorCursor (m : Migration) : Nat := if m.phase = .copy then m.cursor else 256

/-- R24, R26: the primary address of a logical address. -/
def State.primary (s : State) (a : Addr) : Addr :=
  match s.mig.flight with
  | some m => if m.lam = blockOf a then wordAddr m.source (offsetOf a) else wordAddr (s.home (blockOf a)) (offsetOf a)
  | none => wordAddr (s.home (blockOf a)) (offsetOf a)

/-- R26: the mirror address of a write to a logical address. -/
def State.mirror (s : State) (a : Addr) : Option Mirror :=
  match s.mig.flight with
  | some m =>
    if m.lam = blockOf a ∧ (offsetOf a).toNat < m.mirrorCursor then
      some { addr := wordAddr (s.spareBlock m.spare) (offsetOf a), attempt := m.ident }
    else none
  | none => none

/-! ### The decision (R90 to R92) -/

/-- R88: the grant of a fetch. -/
def State.fetchGrant (s : State) (n : Fin 4) (a : Addr) : Grant :=
  if (s.chan n).mode = .read then .wordRead n a (s.primary a) else .rawRead n a

/-- R73, R88: the grant of a write-queue head. -/
def State.writeGrant (s : State) (n : Fin 4) (e : WriteEntry) : Grant :=
  match e.value with
  | .word v => .wordWrite n (s.primary e.addr) (s.mirror e.addr) (freshWord v)
  | .halfLow v => .merge n e.addr (s.primary e.addr) (s.mirror e.addr) false v
  | .halfHigh v => .merge n e.addr (s.primary e.addr) (s.mirror e.addr) true v
  | .raw v side => .rawWrite n e.addr (rawWord v side)

/-- The grant of channel n's request. -/
def State.chanGrant (s : State) (n : Fin 4) : Option Grant :=
  match s.fetchOffer n with
  | some a => some (s.fetchGrant n a)
  | none => (s.writeOffer n).map (s.writeGrant n)

/-- R94: the grant of the migration engine's request. -/
def State.migGrant (s : State) : Option Grant :=
  s.mig.flight.map fun m =>
    let o : Offset := BitVec.ofNat 8 m.cursor
    match m.phase with
    | .copy => .copy (wordAddr m.source o) (wordAddr (s.spareBlock m.spare) o) m.ident
    | _ => .verify (wordAddr (s.spareBlock m.spare) o) m.ident

/-- R45: the grant of the commit unit's request. -/
def State.commitGrant (s : State) : Option Grant :=
  let sn := s.dir.snapshot.getD Snapshot.none
  s.dir.target.map fun t =>
    match s.dir.state with
    | .writing => .dirWrite (s.copyAddr t s.dir.word) (freshWord (sn.attemptWord s.dir.word.toNat))
    | _ =>
      if s.dir.closing then .dirClose (s.copyAddr t 0) (freshWord signature)
      else .dirRead (s.copyAddr t s.dir.word)

/-- R179: the grant of the format filler's request. -/
def State.fillerGrant (s : State) (f : Filler) : Grant :=
  match f.stage with
  | .zero => .fillerWrite (s.copyAddr (if f.word = 0 then .a else .b) 0) (freshWord 0)
  | .fill => .fill f.addr
  | _ =>
    let c := s.fillerCopy f
    match f.phase with
    | .writing => .fillerWrite (s.copyAddr c.1 f.word) (freshWord (c.2.attemptWord f.word.toNat))
    | .readback => .fillerRead (s.copyAddr c.1 f.word)
    | .closing => .fillerWrite (s.copyAddr c.1 0) (freshWord signature)

/-- The grant of the EXCLUSIVE class. -/
def State.exclusiveGrant (s : State) : Option Grant :=
  if s.mountRequests then some (.mountRead (s.copyAddr s.mount.nextCopy (s.mount.word.extractLsb' 0 8)))
  else s.filler.map s.fillerGrant

/-- The grant of the scrub engine's request, with POISON_ON_SCRUB as it stands (R88, R112). -/
def State.scrubGrant (s : State) : Option Grant :=
  s.scrubOffer.map fun x => .scrub x.1 s.scrub.poisonOnScrub x.2

/-- The grant of a class. -/
def State.grantOf (s : State) (k : GrantClass) : Option Grant :=
  match k with
  | .exclusive => s.exclusiveGrant
  | .commit => s.commitGrant
  | .scrubUrgent => s.scrubGrant
  | .host => s.hostChoice.bind s.chanGrant
  | .migrate => s.migGrant
  | .scrubIdle => s.scrubGrant

/-- The requester marks that the grant in progress is its own (R98). -/
def State.markHeld (s : State) (k : GrantClass) : State :=
  match k with
  | .exclusive => { s with mount := { s.mount with holds := s.mountRequests } }
  | .scrubUrgent => { s with scrub := { s.scrub with holds := true } }
  | .scrubIdle => { s with scrub := { s.scrub with holds := true } }
  | .host => match s.hostChoice with
    | some n => s.setChan n { s.chan n with holds := true }
    | none => s
  | .commit => s
  | .migrate => s

/-- R91: the round-robin pointer after a decision. -/
def State.rrAfter (s : State) (k : GrantClass) : Fin 4 :=
  if k = .host then (match s.hostChoice with
    | some n => n + 1
    | none => s.port.rr)
  else s.port.rr

/-- R90, R100, R101: the arbiter may decide. -/
def State.mayDecide (s : State) : Bool :=
  s.port.grant.isNone && !s.port.stopped && !s.dev.inReset && s.dev.state != .fenced

/-- R87, R90 to R93: the free port grants a request of the earliest class present; the grant carries that class. With
none present, or while it may not decide, nothing changes. -/
def State.decide (s : State) : State :=
  if s.mayDecide then
    match s.classChoice with
    | some k =>
      match s.grantOf k with
      | some g =>
        let p : Port := { s.port with rr := s.rrAfter k, aging := agingAfter k s.migRequests s.port.aging,
                                      grant := some g, cls := some k, accesses := [] }
        { s.markHeld k with port := p }
      | none => s
    | none => s
  else s

/-! ### The migration engine's own grants (R144 to R149) -/

/-- R144, R145: the engine acts on a COPY grant's result, when it still holds the attempt. -/
def State.copyResult (s : State) (src : Addr) (attempt : Nat) (r : DecodeResult) : State :=
  match s.mig.flight with
  | some m =>
    if m.phase = .copy ∧ m.ident = attempt then
      let o := m.cursor
      let m1 := { m with
        poison := if r.good then m.poison &&& ~~~(1#256 <<< o) else m.poison ||| (1#256 <<< o)
        cursor := if o + 1 < 256 then o + 1 else 0
        phase := if o + 1 < 256 then .copy else .verify }
      let s1 := { s with mig := { s.mig with flight := some m1 } }
      if r.cls = .uncorrectable then
        s1.post { kind := .uncorrectable, source := .migrate, phys := some m.source, logical := some m.lam,
                  offset := some (offsetOf src), detail := 1 }
      else s1
    else s
  | none => s

/-- R144, R6: a COPY grant completes. -/
def State.copyDone (s : State) (src dst : Addr) (attempt : Nat) : State :=
  let r := decodeWord (s.cell src)
  let s1 := (s.noteRead src).writeCell dst (if r.good then freshWord r.data else poisonedWord)
  s1.withReport (reportOf src .migrate r) fun x => x.copyResult src attempt r

/-- R147: whether a verify result passes, by the poison-map flag. -/
def verifyPasses (flag : Bool) (r : DecodeResult) : Bool :=
  if flag then r.cls == .poisoned && !r.correctedFlag else r.cls == .clean

/-- R148 step 3: a retry onto another spare. -/
def State.retryMigration (s : State) (m : Migration) (k : Nat) : State :=
  let m1 := { m with phase := .copy, spare := k, cursor := 0, poison := 0, attempt := m.attempt + 1,
                     ident := s.mig.nextId }
  let s1 := { s.setSpare k .allocated with mig := { s.mig with flight := some m1, nextId := s.mig.nextId + 1 } }
  s1.post { kind := .migrationRetry, source := .migrate, phys := some (s1.spareBlock k), logical := some m.lam,
            offset := some (BitVec.ofNat 8 m.cursor), detail := BitVec.ofNat 16 (m.attempt + 1) }

/-- R148: a verify read fails: condemnation, then a retry, NO_SPARE or RETRIES. -/
def State.verifyFailed (s : State) (m : Migration) : State :=
  let s1 := s.condemn m.spare .allocated .migrate
  if m.attempt < 3 then
    match s1.freeSpare with
    | some k => s1.retryMigration m k
    | none => s1.abandon m .noSpare
  else s1.abandon m .retries

/-- R149: the last word has passed: COMMIT_WAIT, and a commit is requested; a refusal ends the migration (R152). -/
def State.enterCommitWait (s : State) (m : Migration) : State :=
  let s1 := { s with mig := { s.mig with flight := some { m with phase := .commitWait, cursor := 256 } } }
  if s1.dir.state = .idle ∧ s1.dev.dirReadonly then s1.abandonWaiting else s1.requestCommit

/-- R147: the engine acts on a VERIFY read's result, when it still holds the attempt. -/
def State.verifyResult (s : State) (attempt : Nat) (r : DecodeResult) : State :=
  match s.mig.flight with
  | some m =>
    if m.phase = .verify ∧ m.ident = attempt then
      if verifyPasses (m.poison.getLsbD m.cursor) r then
        if m.cursor < 255 then
          { s with mig := { s.mig with flight := some { m with cursor := m.cursor + 1 } } }
        else s.enterCommitWait m
      else s.verifyFailed m
    else s
  | none => s

/-- R93, R146: the mirror mark of a completed mirrored write clears the poison-map flag of its offset, for the same
attempt. -/
def State.mirrorMark (s : State) (mi : Option Mirror) : State :=
  match mi, s.mig.flight with
  | some x, some m =>
    if m.ident = x.attempt then
      let o := (offsetOf x.addr).toNat
      { s with mig := { s.mig with flight := some { m with poison := m.poison &&& ~~~(1#256 <<< o) } } }
    else s
  | _, _ => s

/-! ### Completions (R95) -/

/-- The fault mark of a fetched word (R63). -/
def markOf (r : DecodeResult) : Option ReadMark :=
  match r.cls with
  | .uncorrectable => some .uncorrectable
  | .poisoned => some .poisoned
  | _ => none

/-- R63, R96: a channel's WORD_READ completes. -/
def State.fetchDone (s : State) (n : Fin 4) (logical prim : Addr) : State :=
  let r := decodeWord (s.cell prim)
  let e : ReadEntry := { addr := logical, data := r.data, side := none, mark := markOf r, phys := some (blockOf prim) }
  (s.noteRead prim).withReport (reportOf prim (hostSource n) r) fun x => x.fetchArrives n e

/-- R10, R63: a channel's RAW_READ completes. -/
def State.rawFetchDone (s : State) (n : Fin 4) (a : Addr) : State :=
  let c := s.cell a
  (s.noteRead a).fetchArrives n { addr := a, data := c.data, side := some (sideBits c), mark := none, phys := none }

/-- R7, R73: a channel's WORD_WRITE completes. -/
def State.wordWriteDone (s : State) (n : Fin 4) (prim : Addr) (mi : Option Mirror) (c : Codeword) : State :=
  (((s.writeCell prim c).writeMirror mi c).mirrorMark mi).entryLeaves n

/-- R8: the data of an accepted merge. -/
def mergedData (old : Word) (high : Bool) (v : Half) : Word :=
  if high then joinHalves v (lowHalf old) else joinHalves (highHalf old) v

/-- R8, R9, R97: a MERGE completes, accepted or refused. -/
def State.mergeDone (s : State) (n : Fin 4) (logical prim : Addr) (mi : Option Mirror) (high : Bool) (v : Half) :
    State :=
  let r := decodeWord (s.cell prim)
  let s1 := s.noteRead prim
  let rep := reportOf prim (hostSource n) r
  match markOf r with
  | some m => s1.withReport rep fun x => x.mergeRefused n logical (blockOf prim) m
  | none =>
    let c := freshWord (mergedData r.data high v)
    (((s1.writeCell prim c).writeMirror mi c).mirrorMark mi).withReport rep fun x => x.entryLeaves n

/-- R11, R73: a RAW_WRITE completes. -/
def State.rawWriteDone (s : State) (n : Fin 4) (a : Addr) (c : Codeword) : State := (s.writeCell a c).entryLeaves n

/-- The completion of a grant at its requester and the fault table (R88, R95). -/
def State.completion (s : State) (g : Grant) : State :=
  match g with
  | .wordRead n l p => s.fetchDone n l p
  | .rawRead n a => s.rawFetchDone n a
  | .wordWrite n p mi c => s.wordWriteDone n p mi c
  | .merge n l p mi h v => s.mergeDone n l p mi h v
  | .rawWrite n a c => s.rawWriteDone n a c
  | .copy src dst k => s.copyDone src dst k
  | .verify a k => (s.noteRead a).verifyResult k (decodeWord (s.cell a))
  | .scrub a poison range => s.scrubDone a poison range
  | .mountRead a => s.mountReadDone a
  | .dirWrite a c => (s.writeCell a c).dirWritten
  | .dirRead a => (s.noteRead a).dirReadBack (decodeWord (s.cell a))
  | .dirClose a c => (s.writeCell a c).commitSuccess
  | .fill a => (s.writeCell a (freshWord 0)).fillAdvance
  | .fillerWrite a c => (s.writeCell a c).fillerWritten
  | .fillerRead a => (s.noteRead a).fillerReadBack (decodeWord (s.cell a))

end Sys2Proof.Machine
end

