-- ==== Sys2Proof/Machine/Device.lean ====
section
/-! DEFINITION. The pins, the reset condition, the fence, the end of a grant, SOFT_RESET (R100 to R102, R171 to R173,
R188, R189). -/

namespace Sys2Proof.Machine

/-! ### The reset condition (R171) -/

/-- R171, R174: every block takes its power-on and pin-reset values; the array, the pins and P stay, and so do the
value the last read returned (log 11) and the accesses of a grant that completed in the same event (R99, log 12). -/
def State.resetAll (s : State) : State :=
  { State.reset with
    pins := s.pins, pCode := s.pCode, array := s.array, mount := MountReader.idle, dev := Device.reset,
    port := { Port.reset with accesses := s.port.accesses },
    host := { HostPort.reset with readData := s.host.readData }, choices := s.choices, pending := s.pending }

/-- R171: the part leaves the reset condition: the straps are sampled (R13) and a mount starts (R35). -/
def State.leaveReset (s : State) : State :=
  ({ s with pCode := s.pins.asz, dev := { s.dev with inReset := false } } : State).startMount

/-- R171, R173: the release of nPFAIL samples the straps (R13); the reset condition is left at once when nRESET is
high. -/
def State.resetBy (s : State) : State :=
  if s.pins.nReset then s.resetAll.leaveReset else { s.resetAll with pCode := s.pins.asz }

/-! ### The fence (R172, R173) -/

/-- R172: the entry event: held cycles end, the scrub timer stops, everything else stays. -/
def State.fence (s : State) : State :=
  ({ s with dev := { s.dev with state := .fenced, inReset := false },
            port := { s.port with stopped := true } } : State).clearTicks.settleHeld

/-- R101, R172, R173: FENCED is entered; a release of nPFAIL that has already come takes effect in the same event.
DESIGN CHOICE (log 33): the level of nPFAIL in this event decides, so a release during the last grant that a new
assertion has followed has no effect, and the part stays FENCED with the state it holds. -/
def State.enterFenced (s : State) : State := if s.pins.nPfail then s.fence.resetBy else s.fence

/-- R101, R172: the entry into FENCED is due: nPFAIL stopped the port and no grant is in progress. -/
def State.fenceDue (s : State) : Bool := s.port.stopped && s.port.grant.isNone && s.dev.state != .fenced

/-- R172: the device enters FENCED when that is due. -/
def State.fenceIfDue (s : State) : State := if s.fenceDue then s.enterFenced else s

/-! ### The end of a grant (R88, R95) -/

/-- The port has no grant in progress. -/
def State.clearGrant (s : State) : State := { s with port := { s.port with grant := none, cls := none } }

/-- R95: the completion event of a grant: the requester's and the fault table's parts, what the scrub engine then
passes over, and the fence when nPFAIL waits for it. DESIGN CHOICE (log 34): a start that the result or its report brings
about (R129, R139, R140, R151) is tried while the device is still in READY, and FENCED is entered after it, though R141
asks for READY at the end of the event. DESIGN CHOICE (log 36): what the scrub engine has to pass over in the completion
event of the last grant before the fence is passed over first as well, and FENCED is entered after it. -/
def State.finish (s : State) (f : State → State) : State :=
  (s.clearGrant.rangeEvent fun x => (f x).scrubSettle).fenceIfDue

/-- The grant in progress completes, whatever it is (R100, R101). -/
def State.completeGrant (s : State) : State :=
  match s.port.grant with
  | some g => s.finish fun x => x.completion g
  | none => s

/-- The grant in progress completes when it is of the kind a row names; otherwise the event is not due. -/
def State.completeKind (s : State) (k : Grant → Bool) : State :=
  match s.port.grant with
  | some g => if k g then s.completeGrant else s
  | none => s

/-! ### Pin events -/

/-- The lines of the grants before this event are over (R99, log 12). -/
def State.clearAccesses (s : State) : State := { s with port := { s.port with accesses := [] } }

/-- The grant in progress completes in a reset event, with its accesses on the lines; with none the lines stay idle
(R99, R100). -/
def State.lastGrant (s : State) : State :=
  match s.port.grant with
  | some _ => s.completeGrant
  | none => s.clearAccesses

/-- R171: power comes up with the straps and pin levels given; the array keeps what it holds (R1). -/
def State.powerOn (s : State) (asz : BitVec 2) (nReset nPfail : Bool) : State :=
  let s0 := s.lastGrant.resetAll
  let s1 := { s0 with pins := { nReset := nReset, nPfail := nPfail, asz := asz }, pCode := asz,
                      host := HostPort.reset }
  if !nPfail then s1.fence else if nReset then s1.leaveReset else s1

/-- The level of nRESET. -/
def State.setNReset (s : State) (v : Bool) : State := { s with pins := { s.pins with nReset := v } }
/-- The level of nPFAIL. -/
def State.setNPfail (s : State) (v : Bool) : State := { s with pins := { s.pins with nPfail := v } }
/-- The strap levels. -/
def State.setAsz (s : State) (v : BitVec 2) : State := { s with pins := { s.pins with asz := v } }

/-- R70, R100, R171, R173: nRESET is asserted: a held cycle ends, the grant in progress completes, then the reset
condition. DESIGN CHOICE (log 32): the completion and the reset values belong to this one event, so no tick, decaying
cell or edge of nPFAIL falls between them. DESIGN CHOICE (log 28): the held cycle ends before the completion, as R70 has
it end on the first event, though R171 names the completion first. No effect while FENCED; when that completion enters
FENCED, the fence wins (log 13). -/
def State.nresetAssert (s : State) : State :=
  let s1 := s.setNReset false
  if s1.dev.state = .fenced then s1
  else
    let s2 := s1.endHeld.lastGrant
    if s2.dev.state = .fenced then s2 else s2.resetAll

/-- R171: nRESET is released: the reset condition is left when nPFAIL is high. -/
def State.nresetRelease (s : State) (asz : BitVec 2) : State :=
  let s1 := (s.setNReset true).setAsz asz
  if s1.dev.inReset && s1.pins.nPfail && s1.dev.state != .fenced then s1.leaveReset else s1

/-- R101, R172: nPFAIL is asserted: the port stops; FENCED is entered at once when no grant is in progress. DESIGN
CHOICE (log 35): in the reset condition too, with nRESET low, R172's "any state other than FENCED" stands before R171's
"while nRESET stays low", so the device leaves the reset condition for FENCED. -/
def State.npfailAssert (s : State) : State :=
  let s1 := s.setNPfail false
  if s1.dev.state = .fenced then s1
  else ({ s1 with port := { s1.port with stopped := true } } : State).fenceIfDue

/-- R173: nPFAIL is released: from FENCED the part takes the reset condition; while the last grant is in progress the
release waits for the entry into FENCED. -/
def State.npfailRelease (s : State) (asz : BitVec 2) : State :=
  let s1 := (s.setNPfail true).setAsz asz
  if s1.dev.state = .fenced then s1.clearAccesses.resetBy else s1

/-! ### SOFT_RESET (R188, R189) -/

/-- R189: SOFT_RESET cuts off a FORMAT or a REMOUNT. -/
def cutsOffMount (r : Option Running) : Bool :=
  match r with
  | some (.format _) => true
  | some .remount => true
  | some (.commit _) => false
  | some (.scrubRange _ _) => false
  | none => false

/-- R188: the blocks the host configures return to their defaults; the map, the commit unit and the device stay. The
COMMAND_DONE with ABORTED of a command cut off is posted and emptied with the queue in the same event. -/
def State.softResetBlocks (s : State) : State :=
  { s.softResetMigration with
    chans := Vector.replicate 4 Channel.reset
    port := { s.port with rr := 0, aging := 0 }
    scrub := Scrub.reset
    faults := FaultTable.empty
    spareCtrl := SpareCtrl.reset
    diag := Diag.reset
    events := Events.empty
    irq := { s.irq with enable := 0 }
    table := TablePort.reset
    host := { s.host with latch := none }
    filler := none
    cmd := { s.cmd with field := commandCode .softReset, refused := false, running := none } }

/-- R188, R189: SOFT_RESET taken. -/
def State.softReset (s : State) : State :=
  let s1 := s.softResetBlocks.complete .ok
  if cutsOffMount s.cmd.running then s1.startMount else s1

end Sys2Proof.Machine
end

