-- ==== Sys2Proof/Machine/Commands.lean ====
section
/-! DEFINITION. The command engine: taking and refusing a COMMAND write, each command, its completion (R174 to R189). -/

namespace Sys2Proof.Machine

/-! ### Checks (R177, R182) -/

/-- The states FORMAT and REMOUNT are accepted in. -/
def State.mountable (s : State) : Bool :=
  s.dev.state == .unformatted || s.dev.state == .foreign || s.dev.state == .ready

/-- R177 check 3: every channel CLOSED, the migration engine and the commit unit IDLE. -/
def State.quiet (s : State) : Bool := s.allClosed && s.mig.flight.isNone && s.dir.state == .idle

/-- The command becomes the command in progress. -/
def State.begin (s : State) (r : Running) : State := { s with cmd := { s.cmd with running := some r } }

/-! ### The commands, once taken (R175) -/

/-- R177, R178: FORMAT. -/
def State.takeFormat (s : State) : State :=
  if !s.mountable then s.complete .notReady
  else if 32 < s.cmd.arg0.toNat then s.complete .badArg
  else if !s.quiet then s.complete .active
  else (s.enterFormatting s.cmd.arg0.toNat).begin (.format s.cmd.arg0)

/-- R182: REMOUNT. -/
def State.takeRemount (s : State) : State :=
  if !s.mountable then s.complete .notReady
  else if !s.quiet then s.complete .active
  else (({ s with dev := { s.dev with dirReadonly := false } } : State).startMount).begin .remount

/-- R183: COMMIT. -/
def State.takeCommit (s : State) : State :=
  if s.dev.state ≠ .ready then s.complete .notReady
  else match s.dir.state with
    | .idle =>
      if s.dev.dirReadonly then s.complete .dirReadonly
      else ((s.begin (.commit false)).requestCommit).scrubSettle
    | _ => (s.begin (.commit true)).requestCommit

/-- R184: the result for the engine's answer. -/
def answerResult (a : MigAnswer) : Result :=
  match a with
  | .accepted => .ok
  | .duplicate => .duplicate
  | .queueFull => .queueFull

/-- The logical block an argument names. -/
def argBlock (v : Half) : Block := v.extractLsb' 0 12

/-- R184: SPARE_BLOCK. The engine's records and the COMMAND_DONE join in either order. -/
def State.takeSpareBlock (s : State) : State :=
  if s.dev.state ≠ .ready then s.complete .notReady
  else if ¬ s.cmd.arg0.toNat < s.logicalBlocks then s.complete .badArg
  else if s.spareCount = 0 then s.complete .noSpare
  else
    let lam := argBlock s.cmd.arg0
    let r := answerResult (s.migAnswer lam)
    s.eitherWay (fun x => x.complete r) (fun x => (x.requestMigration lam .host).scrubSettle)

/-- R185: CANCEL_SPARE. The engine's records and the COMMAND_DONE join in either order. -/
def State.takeCancelSpare (s : State) : State :=
  if s.dev.state ≠ .ready then s.complete .notReady
  else if ¬ s.cmd.arg0.toNat < s.logicalBlocks then s.complete .badArg
  else
    let lam := argBlock s.cmd.arg0
    let r := s.cancelAnswer lam
    s.eitherWay (fun x => x.complete r) (fun x => (x.cancelMigration lam).scrubSettle)

/-- R115: a range run starts. -/
def State.startRange (s : State) (first last : Block) : State :=
  { s with scrub := { s.scrub with range := some { first := first, last := last, cursor := wordAddr first 0 } } }

/-- R186: SCRUB_RANGE. -/
def State.takeScrubRange (s : State) : State :=
  if s.dev.state ≠ .ready then s.complete .notReady
  else if ¬ (s.cmd.arg0.toNat ≤ s.cmd.arg1.toNat ∧ s.cmd.arg1.toNat < s.physBlocks) then s.complete .badArg
  else
    ((s.begin (.scrubRange s.cmd.arg0 s.cmd.arg1)).startRange (argBlock s.cmd.arg0) (argBlock s.cmd.arg1)).scrubSettle

/-- R187: CLEAR_FAULTS. -/
def State.takeClearFaults (s : State) : State :=
  if s.dev.state ≠ .ready then s.complete .notReady
  else ({ s with faults := s.faults.clear } : State).complete .ok

/-! ### A COMMAND write (R175, R197) -/

/-- R175: the three cases in which a COMMAND write is refused. -/
def State.commandRefused (s : State) (c : Option Command) : Bool :=
  s.dev.state == .fenced || (s.dev.state == .mounting && s.cmd.running.isNone) ||
    (s.cmd.running.isSome && c != some .softReset)

/-- R175: a refused write. -/
def State.refuseCommand (s : State) (v : Half) : State :=
  match s.cmd.running with
  | some _ => { s with cmd := { s.cmd with refused := true } }
  | none => { s with cmd := { s.cmd with refused := true, field := v.extractLsb' 0 8, result := .notReady } }

/-- R175: the command field and REFUSED of a write taken. -/
def State.openCommand (s : State) (v : Half) : State :=
  { s with cmd := { s.cmd with refused := false, field := v.extractLsb' 0 8, result := .ok } }

/-- A taken command acts by its own rule. SOFT_RESET finds the command in progress as it was before the write. -/
def State.runCommand (s : State) (c : Option Command) : State :=
  match c with
  | some .format => s.takeFormat
  | some .remount => s.takeRemount
  | some .commit => s.takeCommit
  | some .spareBlock => s.takeSpareBlock
  | some .cancelSpare => s.takeCancelSpare
  | some .scrubRange => s.takeScrubRange
  | some .clearFaults => s.takeClearFaults
  | some .softReset => s.softReset
  | none => s.complete .badArg

/-- R175: a host write of COMMAND. -/
def State.writeCommand (s : State) (v : Half) : State :=
  if s.commandRefused (commandOf v) then s.refuseCommand v else (s.openCommand v).runCommand (commandOf v)

/-- R174: a host write of COMMAND_STATUS. -/
def State.writeCommandStatus (s : State) (v : Half) : State :=
  if v.getLsbD 14 then { s with cmd := { s.cmd with refused := false } } else s

/-! ### A completion that stands due (R176) -/

/-- The result with which the command in progress completes, when the work it waits for is over (log 2). -/
def State.dueResult (s : State) : Option Result :=
  match s.cmd.running with
  | none => none
  | some (.scrubRange _ _) => if s.dev.state != .fenced && s.scrub.range.isNone then some .ok else none
  | some .remount => if s.mountable then some .ok else none
  | some (.format _) =>
    if s.dev.state = .ready then some (if s.dev.outcome = .mounted then .ok else .okDegraded)
    else if s.dev.state = .unformatted then some .dirFail
    else none
  | some (.commit _) =>
    if s.dev.state != .fenced && s.dir.state == .idle then some (if s.dev.dirReadonly then .dirReadonly else .ok)
    else none

/-- R176: the command in progress completes when that is due. -/
def State.completeIfDue (s : State) : State :=
  match s.dueResult with
  | some r => s.complete r
  | none => s

end Sys2Proof.Machine
end

