-- ==== Sys2Proof/Machine/Flags.lean ====
section
/-! DEFINITION. What the host and the board see: the interrupt sources and pins, the codes of R198, and the value of
every register as it stands (R163 to R168, R190 to R200). -/

namespace Sys2Proof.Machine

/-! ### Interrupt sources and pins (R166, R167, R191, R192) -/

/-- R166: the source of channel n: it is in FAULT or END. -/
def State.chanIrq (s : State) (n : Fin 4) : Bool := (s.chan n).state == .faulted || (s.chan n).state == .ended

/-- R166, R196: IRQ_PENDING: EVENT, CH0 … CH3, CMD_DONE, DIR_RO from bit 0 up. -/
def State.irqPending (s : State) : BitVec 7 :=
  BitVec.ofBool s.dev.dirReadonly ++ BitVec.ofBool s.irq.cmdDone ++ BitVec.ofBool (s.chanIrq 3) ++
    BitVec.ofBool (s.chanIrq 2) ++ BitVec.ofBool (s.chanIrq 1) ++ BitVec.ofBool (s.chanIrq 0) ++
    BitVec.ofBool (!s.events.queue.isEmpty)

/-- R167, R192, R168: the IRQ pin. -/
def State.irqPin (s : State) : Bool := !s.dev.inReset && (s.irqPending &&& s.irq.enable) != 0

/-- R191: the WAIT pin. -/
def State.waitPin (s : State) : Bool := s.host.held.isSome

/-! ### The array's lines (R99) -/

/-- Levels on the lines to the array (true is high); `md` is none while the part leaves MD undriven, `ma` none where
R99 names no address. -/
structure ArrayPins where
  nMcs : Bool
  nMoe : Bool
  nMwe : Bool
  ma : Option Addr
  md : Option (BitVec 40)
  deriving DecidableEq, Repr

/-- R99: between accesses, with no grant in progress, in the reset condition and while FENCED. -/
def ArrayPins.idle : ArrayPins := { nMcs := true, nMoe := true, nMwe := true, ma := none, md := none }

/-- R99, R201: the lines in an access. -/
def ArrayAccess.pins : ArrayAccess → ArrayPins
  | .read a => { nMcs := false, nMoe := false, nMwe := true, ma := some a, md := none }
  | .write a c => { nMcs := false, nMoe := true, nMwe := false, ma := some a, md := some (busWord c) }

/-- R88, R99: the lines over a list of accesses: idle before, between and after them. -/
def pinsOver : List ArrayAccess → List ArrayPins
  | [] => [ArrayPins.idle]
  | x :: rest => ArrayPins.idle :: x.pins :: pinsOver rest

/-- R88, R99: the lines over the grant last completed; a grant's accesses run in its completion event (log 12). -/
def State.arrayLines (s : State) : List ArrayPins := pinsOver s.port.accesses

/-- R99: the lines as they stand after an event: where the grant last completed has left them. -/
def State.arrayPins (s : State) : ArrayPins := s.arrayLines.getLastD ArrayPins.idle

/-! ### Codes (R196, R198, R200) -/

/-- R198: event kinds. -/
def kindCode (k : EventKind) : BitVec 4 :=
  match k with
  | .corrected => 1 | .uncorrectable => 2 | .poisonRead => 3 | .spareCondemned => 4 | .migrationRetry => 5
  | .migrationAbandoned => 6 | .migrationDone => 7 | .commitDone => 8 | .commitFailed => 9 | .mountDone => 10
  | .scrubPass => 11 | .scrubLag => 12 | .faultTableFull => 13 | .commandDone => 14 | .eventsLost => 15

/-- R198: sources. -/
def sourceCode (x : Source) : BitVec 4 :=
  match x with
  | .hostCh0 => 0 | .hostCh1 => 1 | .hostCh2 => 2 | .hostCh3 => 3 | .scrub => 4 | .migrate => 5 | .commit => 6
  | .mount => 7 | .command => 8 | .device => 9

/-- R196: device states. -/
def devCode (d : DevState) : BitVec 3 :=
  match d with
  | .mounting => 0 | .unformatted => 1 | .foreign => 2 | .formatting => 3 | .ready => 4 | .fenced => 5

/-- R196: channel states. -/
def chanCode (c : ChanState) : BitVec 3 :=
  match c with
  | .closed => 0 | .opened => 1 | .draining => 2 | .ended => 3 | .faulted => 4

/-- R196: channel modes. -/
def modeCode (m : ChanMode) : BitVec 2 :=
  match m with
  | .read => 0 | .write => 1 | .rawRead => 2 | .rawWrite => 3

/-- R196: channel widths. -/
def widthCode (w : ChanWidth) : BitVec 2 :=
  match w with
  | .word => 0 | .halfLow => 1 | .halfHigh => 2

/-- R196: fault kinds. -/
def faultKindCode (k : FaultKind) : BitVec 3 :=
  match k with
  | .noFault => 0 | .uncorrectable => 1 | .poisoned => 2 | .mergeRefused => 3 | .waitExpired => 4 | .pointerOutside => 5

/-- R196: refusal reasons; 0 none. -/
def refuseCode (r : Option RefuseReason) : BitVec 3 :=
  match r with
  | none => 0
  | some .notClosed => 1
  | some .rawDisabled => 2
  | some .deviceState => 3
  | some .window => 4
  | some .pointer => 5

/-- R196: migration engine states. -/
def migCode (m : Option Migration) : BitVec 2 :=
  match m with
  | none => 0
  | some x => match x.phase with
    | .copy => 1
    | .verify => 2
    | .commitWait => 3

/-- R200: record states. -/
def faultStateCode (x : FaultState) : BitVec 3 :=
  match x with
  | .observed => 0 | .queued => 1 | .migrating => 2 | .retired => 3 | .unspareable => 4

/-! ### Event head and count (R163, R165, R199) -/

/-- R199: an optional block field with its present bit in bit 15. -/
def blockField (b : Option Block) : Half :=
  match b with
  | some x => 0x8000 ||| x.setWidth 16
  | none => 0

/-- R199: EVENT_HEAD0. -/
def EventRecord.head0 (r : EventRecord) : Half := (kindCode r.kind ++ sourceCode r.source) ++ r.offset.getD 0

/-- R199: EVENT_HEAD1. -/
def EventRecord.head1 (r : EventRecord) : Half :=
  blockField r.phys ||| (if r.offset.isSome then 0x4000 else 0)

/-- R199: EVENT_HEAD2. -/
def EventRecord.head2 (r : EventRecord) : Half := blockField r.logical

/-- R163: a field of the head record, or the empty mark. -/
def State.headField (s : State) (f : EventRecord → Half) : Half :=
  match s.events.queue with
  | r :: _ => f r
  | [] => 0

/-- R165, R196: EVENT_COUNT. -/
def State.eventCount (s : State) : Half := s.events.lost ++ BitVec.ofNat 8 s.events.queue.length

/-! ### Device and command registers (R170, R174, R196) -/

/-- R170: DEVICE_STATE. -/
def State.deviceState (s : State) : Half :=
  (0#6 ++ BitVec.ofBool s.diag.rawEnable ++ BitVec.ofBool s.dev.dirReadonly) ++
    (0#2 ++ outcomeCode s.dev.outcome ++ 0#1 ++ devCode s.dev.state)

/-- R174: the result field reads OK while a command is in progress. -/
def CommandEngine.shownResult (c : CommandEngine) : Result := if c.running.isSome then .ok else c.result

/-- R174, R196: COMMAND_STATUS. -/
def State.commandStatus (s : State) : Half :=
  (BitVec.ofBool s.cmd.running.isSome ++ BitVec.ofBool s.cmd.refused ++ 0#2 ++ resultCode s.cmd.shownResult) ++
    s.cmd.field

/-! ### Channel registers (R57, R58, R83, R194, R196) -/

/-- R58, R196: a read of CTRL: the settings, OPEN set unless CLOSED, RESUME NONE. -/
def Channel.ctrlRead (c : Channel) : Half :=
  (0#7 ++ BitVec.ofBool (c.state != .closed)) ++
    (0#2 ++ BitVec.ofBool (c.policy == .wrap) ++ BitVec.ofBool (c.step == .down) ++ widthCode c.width ++ modeCode c.mode)

/-- R83, R196: STATUS. -/
def Channel.statusRead (c : Channel) : Half :=
  (refuseCode c.openRefused ++ BitVec.ofBool c.openRefused.isSome ++ BitVec.ofBool c.writeIgnored ++
    faultKindCode c.faultKind) ++
    (BitVec.ofNat 3 c.writeQ.length ++ BitVec.ofNat 2 c.readAhead.length ++ chanCode c.state)

/-- R194: the address that PTR_LO and PTR_HI show. -/
def Channel.shownAddr (c : Channel) : Addr :=
  match c.view with
  | .pointer => c.pointer
  | .faultAddress => c.faultAddr

/-- The channel registers other than the data registers, by their place in the channel's eight. -/
def Channel.register (c : Channel) (r : BitVec 3) : Half :=
  match r.toNat with
  | 0 => c.ctrlRead
  | 1 => c.statusRead
  | 2 => c.shownAddr.extractLsb' 0 16
  | 3 => (c.shownAddr.extractLsb' 16 4).setWidth 16
  | 4 => c.winFirst.setWidth 16
  | 5 => c.winLast.setWidth 16
  | _ => 0

/-! ### Scrub, spare and diagnostic registers (R104 to R120, R134, R196) -/

/-- R118, R196: SCRUB_CTRL. -/
def State.scrubCtrlRead (s : State) : Half :=
  0#13 ++ (BitVec.ofBool s.scrub.passEvent ++ BitVec.ofBool s.scrub.poisonOnScrub ++ BitVec.ofBool s.scrub.enable)

/-- R111, R196: SCRUB_STATUS. -/
def State.scrubStatusRead (s : State) : Half :=
  (0#3 ++ BitVec.ofBool s.scrub.range.isSome ++ s.scrub.urgentLevel) ++
    (0#3 ++ BitVec.ofBool s.scrub.urgent ++ s.scrub.backlog)

/-- R196: SCRUB_CURSOR. -/
def State.scrubCursorRead (s : State) : Half := s.scrub.block ++ s.scrub.slice

/-- R134, R196: SPARE_CTRL. -/
def State.spareCtrlRead (s : State) : Half :=
  (0#5 ++ BitVec.ofBool s.spareCtrl.commitDoneEvent ++ BitVec.ofBool s.spareCtrl.reportCorrected ++
    BitVec.ofBool s.spareCtrl.autoUncorrectable) ++ s.spareCtrl.threshold

/-- R12, R196: DIAG. -/
def State.diagRead (s : State) : Half := (BitVec.ofBool s.diag.rawEnable ++ 0#7) ++ s.diag.side

/-! ### The paired registers (R193, R196) -/

/-- The number of spares in a state. -/
def State.countSpares (s : State) (st : SpareState) : Nat := s.map.spares.count st

/-- R158: the cursor that MIGRATION_STATUS shows. -/
def State.shownCursor (s : State) : Nat :=
  match s.mig.flight with
  | some m => m.cursor
  | none => 0

/-- R158: the logical block that MIGRATION_STATUS shows; 0 while IDLE. -/
def State.shownLambda (s : State) : Block :=
  match s.mig.flight with
  | some m => m.lam
  | none => 0

/-- Part 1 of a paired register. -/
def State.part1 (s : State) (r : PairedReg) : Half :=
  match r with
  | .geometry => (0#2 ++ BitVec.ofNat 6 s.spareCount) ++ (0#6 ++ s.pCode)
  | .migrationStatus => (0#2 ++ migCode s.mig.flight) ++ s.shownLambda
  | .spareSummary => (0#2 ++ BitVec.ofNat 6 (s.countSpares .inUse)) ++ (0#2 ++ BitVec.ofNat 6 (s.countSpares .free))

/-- Part 2 of a paired register; bit 15 is set. -/
def State.part2 (s : State) (r : PairedReg) : Half :=
  match r with
  | .geometry => 0x8000 ||| BitVec.ofNat 16 s.logicalBlocks
  | .migrationStatus => 0x8000 ||| BitVec.ofNat 16 s.shownCursor
  | .spareSummary => 0x8000 ||| BitVec.ofNat 16 (s.countSpares .condemned)

/-! ### The table port (R195, R200) -/

/-- R200: a fault record. -/
def FaultRecord.words (r : FaultRecord) : TableCopy :=
  { w0 := (1#1 ++ faultStateCode r.state) ++ r.phys
    w1 := blockField r.logical
    w2 := r.corrected ++ (0#4 ++ r.uncorrectable)
    w3 := (sourceCode r.lastSource ++ 0#4) ++ r.lastOffset }

/-- R200: a remap entry. -/
def State.remapWords (s : State) (e : RemapEntry) : TableCopy :=
  { w0 := 0x8000 ||| e.logical.setWidth 16
    w1 := BitVec.ofNat 16 e.spare
    w2 := (s.spareBlock e.spare).setWidth 16
    w3 := 0 }

/-- R200: a spare; the logical block only for one IN_USE. -/
def State.spareWords (s : State) (k : Nat) (st : SpareState) : TableCopy :=
  { w0 := (1#1 ++ 0#1 ++ spareCode st) ++ s.spareBlock k
    w1 := if st = .inUse then blockField ((s.map.remap.find? fun e => e.spare == k).map (·.logical)) else 0
    w2 := BitVec.ofNat 16 k
    w3 := 0 }

/-- R200: a queued migration request. -/
def MigRequest.words (r : MigRequest) : TableCopy :=
  { w0 := 0x8000 ||| r.block.setWidth 16
    w1 := if r.origin = .host then 1 else 0
    w2 := 0
    w3 := 0 }

/-- R195, R200: the copy of record `i` of table `t`: 0 FAULT, 1 REMAP, 2 SPARE, 3 MIGRATION_QUEUE. -/
def State.tableRecord (s : State) (t : BitVec 2) (i : Nat) : TableCopy :=
  match t.toNat with
  | 0 => match s.faults.slots.toList[i]? with
    | some (some r) => r.words
    | _ => TableCopy.empty
  | 1 => match s.map.remap[i]? with
    | some e => s.remapWords e
    | none => TableCopy.empty
  | 2 => match s.map.spares[i]? with
    | some st => s.spareWords i st
    | none => TableCopy.empty
  | _ => match s.mig.queue[i]? with
    | some r => r.words
    | none => TableCopy.empty

/-! ### A register by its address (R190 and the map) -/

/-- The address lies in a channel's eight registers. -/
def chanOf (a : BitVec 6) : Option (Fin 4) :=
  match (a.extractLsb' 3 3).toNat with
  | 2 => some 0
  | 3 => some 1
  | 4 => some 2
  | 5 => some 3
  | _ => none

/-- The paired register at an address (R193). -/
def pairedAt (a : BitVec 6) : Option PairedReg :=
  if a = 0x0E then some .geometry
  else if a = 0x37 then some .migrationStatus
  else if a = 0x38 then some .spareSummary
  else none

/-- The value of the register at an address as it stands, for a register whose read has no other effect: those that
are neither paired nor data registers. -/
def State.register (s : State) (a : BitVec 6) : Half :=
  match chanOf a with
  | some n => (s.chan n).register (a.extractLsb' 0 3)
  | none =>
    match a.toNat with
    | 0x00 => 0x2418
    | 0x01 => s.deviceState
    | 0x02 => s.cmd.field.setWidth 16
    | 0x03 => s.cmd.arg0
    | 0x04 => s.cmd.arg1
    | 0x05 => s.commandStatus
    | 0x06 => s.irqPending.setWidth 16
    | 0x07 => s.irq.enable.setWidth 16
    | 0x08 => s.headField EventRecord.head0
    | 0x09 => s.headField EventRecord.head1
    | 0x0A => s.headField EventRecord.head2
    | 0x0B => s.headField EventRecord.detail
    | 0x0D => s.eventCount
    | 0x0F => s.dir.gen.extractLsb' 0 16
    | 0x30 => s.scrubCtrlRead
    | 0x31 => s.scrub.period
    | 0x32 => s.scrubStatusRead
    | 0x33 => s.scrubCursorRead
    | 0x34 => s.scrub.passes
    | 0x35 => s.scrub.lagCount
    | 0x36 => s.spareCtrlRead
    | 0x39 => (0#3 ++ s.table.index) ++ (0#6 ++ s.table.table)
    | 0x3A => s.table.copy.w0
    | 0x3B => s.table.copy.w1
    | 0x3C => s.table.copy.w2
    | 0x3D => s.table.copy.w3
    | 0x3E => s.faults.untracked
    | 0x3F => s.diagRead
    | _ => 0

end Sys2Proof.Machine
end

