-- ==== Sys2Proof/Machine/Bus.lean ====
section
/-! DEFINITION. The host port: what a bus cycle does at each of the 64 registers (R164 to R167, R190 to R197, R203). -/

namespace Sys2Proof.Machine

/-! ### Cycles (R190, R191, R193) -/

/-- R193: the latch is emptied. -/
def State.emptyLatch (s : State) : State := { s with host := { s.host with latch := none } }

/-- R190, R191: a write cycle: ignored in the reset condition; it cannot take place while a cycle is held (log 20). -/
def State.hostWrite (s : State) (f : State → State) : State :=
  if s.waitPin || s.dev.inReset then s else f s.emptyLatch

/-- R190, R191: a read cycle of a register that is not paired. -/
def State.hostRead (s : State) (f : State → State) : State := if s.waitPin then s else f s.emptyLatch

/-- R193: part 1, and the latch takes the register and its snapshot; in the reset condition it stays empty. -/
def State.readPart1 (s : State) (r : PairedReg) : State :=
  { s with host := { s.host with
    latch := if s.dev.inReset then none else some { reg := r, part1 := s.part1 r, part2 := s.part2 r }
    readData := s.part1 r } }

/-- R193: a read of a paired register. -/
def State.readPaired (s : State) (r : PairedReg) : State :=
  if s.waitPin then s
  else match s.host.latch with
    | some l => if l.reg = r then s.emptyLatch.answer l.part2 else s.readPart1 r
    | none => s.readPart1 r

/-! ### Registers with an effect of their own -/

/-- R161: the EVENTS_LOST record. -/
def eventsLostRecord (n : BitVec 8) : EventRecord :=
  { kind := .eventsLost, source := .device, phys := none, logical := none, offset := none, detail := n.setWidth 16 }

/-- R164: a pop. -/
def Events.pop (e : Events) : Events :=
  match e.queue with
  | [] => e
  | _ :: rest =>
    if e.lost = 0 then { e with queue := rest } else { queue := rest ++ [eventsLostRecord e.lost], lost := 0 }

/-- R164: a write of EVENT_POP. -/
def State.popEvent (s : State) : State := { s with events := s.events.pop }

/-- R166: a write of IRQ_PENDING. -/
def State.writeIrqPending (s : State) (v : Half) : State :=
  if v.getLsbD 5 then { s with irq := { s.irq with cmdDone := false } } else s

/-- R167: a write of IRQ_ENABLE. -/
def State.writeIrqEnable (s : State) (v : Half) : State :=
  { s with irq := { s.irq with enable := v.extractLsb' 0 7 } }

/-- R195: a write of TABLE_SELECT. -/
def State.writeTableSelect (s : State) (v : Half) : State :=
  let t : BitVec 2 := v.extractLsb' 0 2
  let i : BitVec 5 := v.extractLsb' 8 5
  { s with table := { table := t, index := i, copy := s.tableRecord t i.toNat } }

/-- R174: a write of COMMAND_ARG0. -/
def State.writeArg0 (s : State) (v : Half) : State := { s with cmd := { s.cmd with arg0 := v } }
/-- R174: a write of COMMAND_ARG1. -/
def State.writeArg1 (s : State) (v : Half) : State := { s with cmd := { s.cmd with arg1 := v } }
/-- R134: a write of SPARE_CTRL. -/
def State.writeSpareCtrl (s : State) (v : Half) : State := { s with spareCtrl := spareCtrlOf v }
/-- R12: a write of DIAG. -/
def State.writeDiag (s : State) (v : Half) : State := { s with diag := diagOf v }

/-! ### The map (R190) -/

/-- A write of a channel's register, by its place in the channel's eight. -/
def State.writeChanRegister (s : State) (n : Fin 4) (r : BitVec 3) (v : Half) : State :=
  match r.toNat with
  | 0 => s.writeCtrl n v
  | 1 => s.writeStatus n v
  | 2 => s.writePtrLo n v
  | 3 => s.writePtrHi n v
  | 4 => s.writeWinFirst n v
  | 5 => s.writeWinLast n v
  | 6 => s.writeDataReg n false v
  | _ => s.writeDataReg n true v

/-- The rule of the register written; a read-only register takes nothing. -/
def State.writeRegister (s : State) (a : BitVec 6) (v : Half) : State :=
  match chanOf a with
  | some n => s.writeChanRegister n (a.extractLsb' 0 3) v
  | none =>
    match a.toNat with
    | 0x02 => s.writeCommand v
    | 0x03 => s.writeArg0 v
    | 0x04 => s.writeArg1 v
    | 0x05 => s.writeCommandStatus v
    | 0x06 => s.writeIrqPending v
    | 0x07 => s.writeIrqEnable v
    | 0x0C => s.popEvent
    | 0x30 => s.writeScrubCtrl v
    | 0x31 => s.writeScrubPeriod v
    | 0x32 => s.writeScrubStatus v
    | 0x36 => s.writeSpareCtrl v
    | 0x39 => s.writeTableSelect v
    | 0x3F => s.writeDiag v
    | _ => s

/-- The read of a data register, or of a register whose value alone matters. -/
def State.readPlain (s : State) (a : BitVec 6) : State :=
  match chanOf a with
  | some n =>
    match (a.extractLsb' 0 3).toNat with
    | 6 => s.readDataReg n false
    | 7 => s.readDataReg n true
    | _ => s.answer (s.register a)
  | none => s.answer (s.register a)

/-- A write cycle at an address. -/
def State.busWrite (s : State) (a : BitVec 6) (v : Half) : State := s.hostWrite fun x => x.writeRegister a v

/-- A read cycle at an address. -/
def State.busRead (s : State) (a : BitVec 6) : State :=
  match pairedAt a with
  | some r => s.readPaired r
  | none => s.hostRead fun x => x.readPlain a

end Sys2Proof.Machine
end

