-- ==== Sys2Proof/Machine/ChannelEvents.lean ====
section
/-! DEFINITION. The meanings of the channel commands (chapter 4). -/

namespace Sys2Proof.Machine

/-- CHANNEL_SETTINGS_LOAD (R58): a CTRL write, acting by its value and the channel's state (R58, log 19). -/
def execChannelSettingsLoad (n : Fin 4) (v : Half) (s : State) : Host.Outcome State Fault Refusal :=
  .next (s.hostWrite fun x => x.writeCtrl n v)

/-- CHANNEL_OPEN (R59): a CTRL write, acting by its value and the channel's state (R58, log 19). -/
def execChannelOpen (n : Fin 4) (v : Half) (s : State) : Host.Outcome State Fault Refusal :=
  .next (s.hostWrite fun x => x.writeCtrl n v)

/-- CHANNEL_CLOSE (R76): a CTRL write, acting by its value and the channel's state (R58, log 19). -/
def execChannelClose (n : Fin 4) (v : Half) (s : State) : Host.Outcome State Fault Refusal :=
  .next (s.hostWrite fun x => x.writeCtrl n v)

/-- RESUME_RETRY (R75): a CTRL write, acting by its value and the channel's state (R58, log 19). -/
def execResumeRetry (n : Fin 4) (v : Half) (s : State) : Host.Outcome State Fault Refusal :=
  .next (s.hostWrite fun x => x.writeCtrl n v)

/-- RESUME_SKIP (R75): a CTRL write, acting by its value and the channel's state (R58, log 19). -/
def execResumeSkip (n : Fin 4) (v : Half) (s : State) : Host.Outcome State Fault Refusal :=
  .next (s.hostWrite fun x => x.writeCtrl n v)

/-- POINTER_WRITE (R57, R61): a PTR_LO write. -/
def execPointerWrite (n : Fin 4) (v : Half) (s : State) : Host.Outcome State Fault Refusal :=
  .next (s.hostWrite fun x => x.writePtrLo n v)

/-- DATA_LO_READ (R65). -/
def execDataLoRead (n : Fin 4) (s : State) : Host.Outcome State Fault Refusal :=
  .next (s.hostRead fun x => x.readDataReg n false)

/-- DATA_HI_READ (R66). -/
def execDataHiRead (n : Fin 4) (s : State) : Host.Outcome State Fault Refusal :=
  .next (s.hostRead fun x => x.readDataReg n true)

/-- DATA_LO_WRITE (R68). -/
def execDataLoWrite (n : Fin 4) (v : Half) (s : State) : Host.Outcome State Fault Refusal :=
  .next (s.hostWrite fun x => x.writeDataReg n false v)

/-- DATA_HI_WRITE (R68). -/
def execDataHiWrite (n : Fin 4) (v : Half) (s : State) : Host.Outcome State Fault Refusal :=
  .next (s.hostWrite fun x => x.writeDataReg n true v)

/-- STATUS_WRITE (R194). -/
def execStatusWrite (n : Fin 4) (v : Half) (s : State) : Host.Outcome State Fault Refusal :=
  .next (s.hostWrite fun x => x.writeStatus n v)

/-- HELD_CYCLE_END (R70), when it is due (log 2). -/
def execHeldCycleEnd (s : State) : Host.Outcome State Fault Refusal := .next (s.settleHeld)

/-- WAIT_LIMIT_EXPIRY (R71), on the cycle held, if any. -/
def execWaitLimitExpiry (s : State) : Host.Outcome State Fault Refusal := .next (s.expireWait)

/-- DRAIN_COMPLETE (R76), when it is due (log 2). -/
def execDrainComplete (n : Fin 4) (s : State) : Host.Outcome State Fault Refusal := .next (s.drained n)

end Sys2Proof.Machine
end

