-- ==== Sys2Proof/Machine/CommandEvents.lean ====
section
/-! DEFINITION. The meanings of the COMMAND writes and of a completion (chapter 10). -/

namespace Sys2Proof.Machine

/-- FORMAT (R177): its code written to COMMAND. -/
def execFormat (s : State) : Host.Outcome State Fault Refusal :=
  .next (s.hostWrite fun x => x.writeCommand ((commandCode .format).setWidth 16))

/-- REMOUNT (R182): its code written to COMMAND. -/
def execRemount (s : State) : Host.Outcome State Fault Refusal :=
  .next (s.hostWrite fun x => x.writeCommand ((commandCode .remount).setWidth 16))

/-- COMMIT (R183): its code written to COMMAND. -/
def execCommit (s : State) : Host.Outcome State Fault Refusal :=
  .next (s.hostWrite fun x => x.writeCommand ((commandCode .commit).setWidth 16))

/-- SPARE_BLOCK (R184): its code written to COMMAND. -/
def execSpareBlock (s : State) : Host.Outcome State Fault Refusal :=
  .next (s.hostWrite fun x => x.writeCommand ((commandCode .spareBlock).setWidth 16))

/-- CANCEL_SPARE (R185): its code written to COMMAND. -/
def execCancelSpare (s : State) : Host.Outcome State Fault Refusal :=
  .next (s.hostWrite fun x => x.writeCommand ((commandCode .cancelSpare).setWidth 16))

/-- SCRUB_RANGE (R186): its code written to COMMAND. -/
def execScrubRange (s : State) : Host.Outcome State Fault Refusal :=
  .next (s.hostWrite fun x => x.writeCommand ((commandCode .scrubRange).setWidth 16))

/-- CLEAR_FAULTS (R187): its code written to COMMAND. -/
def execClearFaults (s : State) : Host.Outcome State Fault Refusal :=
  .next (s.hostWrite fun x => x.writeCommand ((commandCode .clearFaults).setWidth 16))

/-- SOFT_RESET (R188): its code written to COMMAND. -/
def execSoftReset (s : State) : Host.Outcome State Fault Refusal :=
  .next (s.hostWrite fun x => x.writeCommand ((commandCode .softReset).setWidth 16))

/-- UNDEFINED_COMMAND (R197): a value written to COMMAND. -/
def execUndefinedCommand (v : Half) (s : State) : Host.Outcome State Fault Refusal :=
  .next (s.hostWrite fun x => x.writeCommand v)

/-- COMMAND_COMPLETION (R176), when it is due (log 2). -/
def execCommandCompletion (s : State) : Host.Outcome State Fault Refusal := .next (s.completeIfDue)

/-- COMMAND_STATUS_WRITE (R174). -/
def execCommandStatusWrite (v : Half) (s : State) : Host.Outcome State Fault Refusal :=
  .next (s.hostWrite fun x => x.writeCommandStatus v)

end Sys2Proof.Machine
end

