-- ==== Sys2Proof/Machine/PinEvents.lean ====
section
/-! DEFINITION. The meanings of the pin commands (R171 to R173). -/

namespace Sys2Proof.Machine

/-- POWER_ON (R171). -/
def execPowerOn (asz : BitVec 2) (nReset nPfail : Bool) (s : State) : Host.Outcome State Fault Refusal :=
  .next (s.powerOn asz nReset nPfail)

/-- NRESET_ASSERT (R171). -/
def execNresetAssert (s : State) : Host.Outcome State Fault Refusal := .next (s.nresetAssert)

/-- NRESET_RELEASE (R171). -/
def execNresetRelease (asz : BitVec 2) (s : State) : Host.Outcome State Fault Refusal := .next (s.nresetRelease asz)

/-- NPFAIL_ASSERT (R101, R172). -/
def execNpfailAssert (s : State) : Host.Outcome State Fault Refusal := .next (s.npfailAssert)

/-- ENTER_FENCED (R172), when it is due (log 2). -/
def execEnterFenced (s : State) : Host.Outcome State Fault Refusal := .next (s.fenceIfDue)

/-- NPFAIL_RELEASE (R173). -/
def execNpfailRelease (asz : BitVec 2) (s : State) : Host.Outcome State Fault Refusal := .next (s.npfailRelease asz)

end Sys2Proof.Machine
end

