-- ==== Sys2Proof/Machine/PortEvents.lean ====
section
/-! DEFINITION. The meanings of the timer, the arbiter, the completions, the inner steps and cell decay (chapters 1 to 8). -/

namespace Sys2Proof.Machine

/-- R108, R109: the period timer expires, while it runs. -/
def State.scrubTimer (s : State) : State := if s.timerRuns then s.timerExpires else s

/-- R98: which completion row a grant ends with. -/
def Grant.isFetch (g : Grant) : Bool :=
  match g with
  | .wordRead _ _ _ => true
  | .rawRead _ _ => true
  | _ => false

/-- FORMAT_COPY_GRANT_DONE ends the filler's word writes and readbacks. -/
def Grant.isFillerCopy (g : Grant) : Bool :=
  match g with
  | .fillerWrite _ _ => true
  | .fillerRead _ => true
  | _ => false

/-- The engine steps that stand due outside a completion: what `f` does, and what the scrub engine then passes
over. -/
def State.withSettle (s : State) (f : State → State) : State := s.rangeEvent fun x => (f x).scrubSettle

/-- R42, R47 step 5: a commit that the pending flag asks for may start. -/
def State.commitStartDue (s : State) : Bool :=
  s.dir.state == .idle && s.dir.pendingFlag && s.dev.state == .ready && !s.dev.dirReadonly

/-- R150: the commit whose snapshot includes the migration in flight has succeeded: its target copy is known as valid
with the generation of the snapshot, and the unit is IDLE. -/
def State.includedDone (s : State) : Bool :=
  s.dir.state == .idle && s.dev.state == .ready &&
    (match s.dir.snapshot, s.dir.target with
    | some r, some t => s.dir.known t == { valid := true, gen := r.gen } && s.dir.gen == r.gen
    | _, _ => false)

/-- R3, R4: a stored bit flips; a location or line that does not exist has none (log 23). -/
def State.decay (s : State) (a : Addr) (bit : BitVec 6) : State :=
  if a.toNat < s.physBlocks * 256 ∧ bit.toNat < 40 then
    { s with array := s.array.put a.toNat (flipBit (s.array.get a.toNat) bit.toNat) }
  else s

/-- SCRUB_TIMER_EXPIRY (R109), while the timer runs. -/
def execScrubTimerExpiry (s : State) : Host.Outcome State Fault Refusal := .next (s.scrubTimer)

/-- GRANT_DECISION (R90). -/
def execGrantDecision (s : State) : Host.Outcome State Fault Refusal := .next (s.decide)

/-- FETCH_COMPLETE (R63). -/
def execFetchComplete (s : State) : Host.Outcome State Fault Refusal := .next (s.completeKind Grant.isFetch)

/-- WORD_WRITE_DONE (R73). -/
def execWordWriteDone (s : State) : Host.Outcome State Fault Refusal :=
  .next (s.completeKind fun g => g matches .wordWrite _ _ _ _)

/-- RAW_WRITE_DONE (R11). -/
def execRawWriteDone (s : State) : Host.Outcome State Fault Refusal :=
  .next (s.completeKind fun g => g matches .rawWrite _ _ _)

/-- MERGE_DONE (R8). -/
def execMergeDone (s : State) : Host.Outcome State Fault Refusal :=
  .next (s.completeKind fun g => g matches .merge _ _ _ _ _ _)

/-- COPY_DONE (R144). -/
def execCopyDone (s : State) : Host.Outcome State Fault Refusal :=
  .next (s.completeKind fun g => g matches .copy _ _ _)

/-- VERIFY_READ_DONE (R147). -/
def execVerifyReadDone (s : State) : Host.Outcome State Fault Refusal :=
  .next (s.completeKind fun g => g matches .verify _ _)

/-- SCRUB_WORD_DONE (R113). -/
def execScrubWordDone (s : State) : Host.Outcome State Fault Refusal :=
  .next (s.completeKind fun g => g matches .scrub _ _ _)

/-- MOUNT_READ_DONE (R36). -/
def execMountReadDone (s : State) : Host.Outcome State Fault Refusal :=
  .next (s.completeKind fun g => g matches .mountRead _)

/-- COMMIT_WRITE_DONE (R45). -/
def execCommitWriteDone (s : State) : Host.Outcome State Fault Refusal :=
  .next (s.completeKind fun g => g matches .dirWrite _ _)

/-- COMMIT_READBACK_DONE (R46). -/
def execCommitReadbackDone (s : State) : Host.Outcome State Fault Refusal :=
  .next (s.completeKind fun g => g matches .dirRead _)

/-- CLOSING_WRITE_DONE (R47). -/
def execClosingWriteDone (s : State) : Host.Outcome State Fault Refusal :=
  .next (s.completeKind fun g => g matches .dirClose _ _)

/-- COMMIT_START (R43), when it is due (log 2). -/
def execCommitStart (s : State) : Host.Outcome State Fault Refusal :=
  .next (if s.commitStartDue then s.withSettle State.nextCommit else s)

/-- MIGRATION_START (R142), when it is due (log 2). -/
def execMigrationStart (s : State) : Host.Outcome State Fault Refusal :=
  .next (if s.startDue then s.withSettle State.tryStart else s)

/-- MIGRATION_COMPLETE (R151), when it is due (log 2). -/
def execMigrationComplete (s : State) : Host.Outcome State Fault Refusal :=
  .next (if s.includedDone then s.withSettle State.completeIncluded else s)

/-- FILL_DONE (R179). -/
def execFillDone (s : State) : Host.Outcome State Fault Refusal := .next (s.completeKind fun g => g matches .fill _)

/-- FORMAT_COPY_GRANT_DONE (R53, R179). -/
def execFormatCopyGrantDone (s : State) : Host.Outcome State Fault Refusal :=
  .next (s.completeKind Grant.isFillerCopy)

/-- CELL_DECAY (R3). -/
def execCellDecay (a : Addr) (bit : BitVec 6) (s : State) : Host.Outcome State Fault Refusal := .next (s.decay a bit)

end Sys2Proof.Machine
end

