-- ==== Sys2Proof/Machine/RegisterEvents.lean ====
section
/-! DEFINITION. The meanings of the other register cycles (chapters 6, 9, 11). -/

namespace Sys2Proof.Machine

/-- IRQ_PENDING_WRITE (R166). -/
def execIrqPendingWrite (v : Half) (s : State) : Host.Outcome State Fault Refusal :=
  .next (s.hostWrite fun x => x.writeIrqPending v)

/-- IRQ_ENABLE_WRITE (R167). -/
def execIrqEnableWrite (v : Half) (s : State) : Host.Outcome State Fault Refusal :=
  .next (s.hostWrite fun x => x.writeIrqEnable v)

/-- EVENT_POP (R164): any value pops. -/
def execEventPop (_v : Half) (s : State) : Host.Outcome State Fault Refusal := .next (s.hostWrite fun x => x.popEvent)

/-- TABLE_SELECT_WRITE (R195). -/
def execTableSelectWrite (v : Half) (s : State) : Host.Outcome State Fault Refusal :=
  .next (s.hostWrite fun x => x.writeTableSelect v)

/-- PAIRED_READ (R193). -/
def execPairedRead (r : PairedReg) (s : State) : Host.Outcome State Fault Refusal := .next (s.readPaired r)

/-- SCRUB_CTRL_WRITE (R118). -/
def execScrubCtrlWrite (v : Half) (s : State) : Host.Outcome State Fault Refusal :=
  .next (s.hostWrite fun x => x.writeScrubCtrl v)

/-- SCRUB_PERIOD_WRITE (R108). -/
def execScrubPeriodWrite (v : Half) (s : State) : Host.Outcome State Fault Refusal :=
  .next (s.hostWrite fun x => x.writeScrubPeriod v)

/-- SCRUB_STATUS_WRITE (R111). -/
def execScrubStatusWrite (v : Half) (s : State) : Host.Outcome State Fault Refusal :=
  .next (s.hostWrite fun x => x.writeScrubStatus v)

/-- REGISTER_WRITE (R190): the rule of the register at the address. -/
def execRegisterWrite (a : BitVec 6) (v : Half) (s : State) : Host.Outcome State Fault Refusal :=
  .next (s.busWrite a v)

/-- REGISTER_READ (R190): the register at the address. -/
def execRegisterRead (a : BitVec 6) (s : State) : Host.Outcome State Fault Refusal := .next (s.busRead a)

end Sys2Proof.Machine
end

