-- ==== Sys2Proof/Machine/Dispatch.lean ====
section
/-! DEFINITION. One arm per command: the meaning of each. -/

namespace Sys2Proof.Machine

/-- The effect of a command on everything but the queue. -/
def exec (i : Instr) (s : State) : Host.Outcome State Fault Refusal :=
  match i with
  | .powerOn asz nReset nPfail => Sys2Proof.Machine.execPowerOn asz nReset nPfail s
  | .nresetAssert => Sys2Proof.Machine.execNresetAssert s
  | .nresetRelease asz => Sys2Proof.Machine.execNresetRelease asz s
  | .npfailAssert => Sys2Proof.Machine.execNpfailAssert s
  | .enterFenced => Sys2Proof.Machine.execEnterFenced s
  | .npfailRelease asz => Sys2Proof.Machine.execNpfailRelease asz s
  | .channelSettingsLoad n v => Sys2Proof.Machine.execChannelSettingsLoad n v s
  | .channelOpen n v => Sys2Proof.Machine.execChannelOpen n v s
  | .channelClose n v => Sys2Proof.Machine.execChannelClose n v s
  | .resumeRetry n v => Sys2Proof.Machine.execResumeRetry n v s
  | .resumeSkip n v => Sys2Proof.Machine.execResumeSkip n v s
  | .pointerWrite n v => Sys2Proof.Machine.execPointerWrite n v s
  | .dataLoRead n => Sys2Proof.Machine.execDataLoRead n s
  | .dataHiRead n => Sys2Proof.Machine.execDataHiRead n s
  | .dataLoWrite n v => Sys2Proof.Machine.execDataLoWrite n v s
  | .dataHiWrite n v => Sys2Proof.Machine.execDataHiWrite n v s
  | .statusWrite n v => Sys2Proof.Machine.execStatusWrite n v s
  | .heldCycleEnd => Sys2Proof.Machine.execHeldCycleEnd s
  | .waitLimitExpiry => Sys2Proof.Machine.execWaitLimitExpiry s
  | .drainComplete n => Sys2Proof.Machine.execDrainComplete n s
  | .format => Sys2Proof.Machine.execFormat s
  | .remount => Sys2Proof.Machine.execRemount s
  | .commit => Sys2Proof.Machine.execCommit s
  | .spareBlock => Sys2Proof.Machine.execSpareBlock s
  | .cancelSpare => Sys2Proof.Machine.execCancelSpare s
  | .scrubRange => Sys2Proof.Machine.execScrubRange s
  | .clearFaults => Sys2Proof.Machine.execClearFaults s
  | .softReset => Sys2Proof.Machine.execSoftReset s
  | .undefinedCommand v => Sys2Proof.Machine.execUndefinedCommand v s
  | .commandCompletion => Sys2Proof.Machine.execCommandCompletion s
  | .commandStatusWrite v => Sys2Proof.Machine.execCommandStatusWrite v s
  | .irqPendingWrite v => Sys2Proof.Machine.execIrqPendingWrite v s
  | .irqEnableWrite v => Sys2Proof.Machine.execIrqEnableWrite v s
  | .eventPop v => Sys2Proof.Machine.execEventPop v s
  | .tableSelectWrite v => Sys2Proof.Machine.execTableSelectWrite v s
  | .pairedRead r => Sys2Proof.Machine.execPairedRead r s
  | .scrubCtrlWrite v => Sys2Proof.Machine.execScrubCtrlWrite v s
  | .scrubPeriodWrite v => Sys2Proof.Machine.execScrubPeriodWrite v s
  | .scrubStatusWrite v => Sys2Proof.Machine.execScrubStatusWrite v s
  | .registerWrite a v => Sys2Proof.Machine.execRegisterWrite a v s
  | .scrubTimerExpiry => Sys2Proof.Machine.execScrubTimerExpiry s
  | .grantDecision => Sys2Proof.Machine.execGrantDecision s
  | .fetchComplete => Sys2Proof.Machine.execFetchComplete s
  | .wordWriteDone => Sys2Proof.Machine.execWordWriteDone s
  | .rawWriteDone => Sys2Proof.Machine.execRawWriteDone s
  | .mergeDone => Sys2Proof.Machine.execMergeDone s
  | .copyDone => Sys2Proof.Machine.execCopyDone s
  | .verifyReadDone => Sys2Proof.Machine.execVerifyReadDone s
  | .scrubWordDone => Sys2Proof.Machine.execScrubWordDone s
  | .mountReadDone => Sys2Proof.Machine.execMountReadDone s
  | .commitWriteDone => Sys2Proof.Machine.execCommitWriteDone s
  | .commitReadbackDone => Sys2Proof.Machine.execCommitReadbackDone s
  | .closingWriteDone => Sys2Proof.Machine.execClosingWriteDone s
  | .commitStart => Sys2Proof.Machine.execCommitStart s
  | .migrationStart => Sys2Proof.Machine.execMigrationStart s
  | .migrationComplete => Sys2Proof.Machine.execMigrationComplete s
  | .fillDone => Sys2Proof.Machine.execFillDone s
  | .formatCopyGrantDone => Sys2Proof.Machine.execFormatCopyGrantDone s
  | .cellDecay a bit => Sys2Proof.Machine.execCellDecay a bit s
  | .registerRead a => Sys2Proof.Machine.execRegisterRead a s

end Sys2Proof.Machine
end

