-- ==== Sys2Proof/Machine/Step.lean ====
section
/-! DEFINITION. One step: the command at the front of the queue, or, with none waiting, one tick of the timebase. -/

namespace Sys2Proof.Machine

/-- R70, R191: a held cycle is one tick older; at the eighth the wait limit expires. -/
def State.ageHeld (s : State) : State :=
  match s.host.held with
  | none => s
  | some h =>
    if 8 ≤ h.ticks + 1 then s.expireWait
    else { s with host := { s.host with held := some { h with ticks := h.ticks + 1 } } }

/-- R108: while the timer runs, one tick is counted; at SCRUB_PERIOD ticks it expires. -/
def State.countTick (s : State) : State :=
  if s.timerRuns then
    if s.scrub.period ≤ s.scrub.ticks + 1 then s.timerExpires
    else { s with scrub := { s.scrub with ticks := s.scrub.ticks + 1 } }
  else s

/-- DESIGN CHOICE (log 3): one 64 µs tick of the timebase, the held cycle's count first. -/
def State.tick (s : State) : State := s.ageHeld.countTick

/-- The next command of the queue; an empty queue lets one tick pass. -/
def step (s : State) : Host.Outcome State Fault Refusal :=
  match s.pending with
  | [] => .next s.tick
  | c :: rest => exec c { s with pending := rest }

/-- The command a word spells, put at the front of the queue. The table gives no row bits, so no word spells one. -/
def State.withFetchWord (s : State) (nbits w : Nat) : State :=
  match decodeTableWord nbits w with
  | some c => { s with pending := c :: s.pending }
  | none => s

end Sys2Proof.Machine
end

