-- ==== Sys2Proof/Safety.lean ====
section
/-! DEFINITION. What claims speak of: when a bus cycle is taken, when a grant ends with its own effect alone, and the
legal states of the blocks. -/

namespace Sys2Proof.Machine

/-! ### Conditions on a state -/

/-- R190, R191: a host bus cycle is taken: no cycle is held and the part is not in the reset condition. -/
abbrev State.busFree (s : State) : Prop := s.host.held = none ∧ s.dev.inReset = false

/-- A bus cycle is taken and the device is not FENCED. -/
abbrev State.busOpen (s : State) : Prop := s.busFree ∧ s.dev.state ≠ .fenced

/-- R193: the state after the latch is emptied, which every cycle but a paired read does. -/
abbrev State.latched (s : State) : State := { s with host := { s.host with latch := none } }

/-- SCRUB_RANGE is the command in progress. -/
def State.rangeRuns (s : State) : Bool :=
  match s.cmd.running with
  | some (.scrubRange _ _) => true
  | _ => false

/-- A grant in progress ends with its requester's and the fault table's effect alone: nPFAIL has not stopped the
port, the device is not FENCED, no range run is in progress, and the scrub cursor does not stand in a skipped block. -/
abbrev State.quietEnd (s : State) : Prop :=
  s.port.stopped = false ∧ s.dev.state ≠ .fenced ∧ s.rangeRuns = false ∧ s.scrub.range = none ∧
    s.skipped s.scrub.block = false

/-- The state with the grant in progress over and its array accesses listed (R88, R99). -/
abbrev State.granted (s : State) (l : List ArrayAccess) : State :=
  { s with port := { s.port with grant := none, cls := none, accesses := s.port.accesses ++ l } }

/-- A COMMAND write that may be taken: none in progress, and the device not MOUNTING or FENCED. -/
abbrev State.commandFree (s : State) : Prop :=
  s.busFree ∧ s.cmd.running = none ∧ s.dev.state ≠ .mounting ∧ s.dev.state ≠ .fenced

/-- R176: a command that completes at once with result r: COMMAND_DONE with the command and the result, CMD_DONE set,
busy and REFUSED clear, and no other effect. -/
def State.doneAtOnce (s : State) (code : BitVec 8) (r : Result) : State :=
  { s.latched with
    cmd := { s.cmd with field := code, result := r, refused := false, running := none }
    irq := { s.irq with cmdDone := true }
    events := s.events.offer
      { kind := .commandDone, source := .command, phys := none, logical := none, offset := none,
        detail := code ++ (0#4 ++ resultCode r) } }

/-! ### Legal states of the blocks -/

/-- R162: the event queue holds at most 16 records, and 16 whenever the lost count is above 0. -/
abbrev Events.legal (e : Events) : Prop := e.queue.length ≤ 16 ∧ (e.lost ≠ 0 → e.queue.length = 16)

/-- R55, R62, R76: a channel's queues hold at most 2 and 4 entries; a fetch in progress has its place; only a READ or
RAW_READ channel that is neither CLOSED nor DRAINING holds fetched words. -/
abbrev Channel.legal (c : Channel) : Prop :=
  c.readAhead.length ≤ 2 ∧ c.writeQ.length ≤ 4 ∧ (c.holds = true → c.readAhead.length ≤ 1) ∧
    ((c.state = .closed ∨ c.state = .draining ∨ c.reads = false) → c.readAhead = [])

/-- Every channel is legal. -/
abbrev State.chansLegal (s : State) : Prop := ∀ n, (s.chan n).legal

/-- R138: at most 8 requests, never the same block twice, never the block of the migration in flight. -/
abbrev MigEngine.legal (e : MigEngine) : Prop :=
  e.queue.length ≤ 8 ∧ (e.queue.map (·.block)).Nodup ∧
    ∀ m ∈ e.flight, m.lam ∉ e.queue.map (·.block)

/-! ### Directory copies (R32 to R34) -/

/-- The content a directory copy may record (R32, R34): a real P, at most 32 spares, a generation above 0, entries of
distinct logical blocks below L on distinct IN_USE spares, every IN_USE spare with an entry, none ALLOCATED. -/
structure Snapshot.Sound (r : Snapshot) : Prop where
  gen : r.gen ≠ 0
  blocks : r.blocks ∈ [512, 1024, 2048, 4096]
  spares : r.spares.length ≤ 32
  logical : ∀ e ∈ r.entries, e.logical.toNat < r.blocks - 2 - r.spares.length
  inUse : ∀ e ∈ r.entries, r.spares[e.spare]? = some .inUse
  distinct : (r.entries.map (·.logical)).Nodup
  disjoint : (r.entries.map (·.spare)).Nodup
  count : r.spares.count .inUse = r.entries.length
  recorded : SpareState.allocated ∉ r.spares

/-- R36: the tests of a copy after its 256 words, each stored in fresh form, are read in order. -/
def foldOf (word : Nat → Word) : CopyFold :=
  (List.range 256).foldl (fun f i => f.add i (decodeWord (freshWord (word i)))) CopyFold.start

end Sys2Proof.Machine
end

