-- ==== Sys2Proof/Certificates/Slice0/Obligations.lean ====
section
/-! DEFINITION. The statements for the provers. Each says what an event of the part does, or what stays true over
every event. -/

open Sys2Proof Sys2Proof.Machine

/-! ### The queue of commands and the whole part -/

/-- A step takes the command at the front of the queue: it is exec of that command on the state with the queue's rest.
-/
def Obligations.StepRunsFrontCommand : Prop :=
  ∀ (c : Instr) (s : State), step { s with pending := c :: s.pending } = exec c s

/-- The model's choice (log 3): with no command waiting one tick of the 64 µs timebase passes. With no cycle held,
nothing happens while the scrub timer does not run; while it runs the tick count rises by one, and at SCRUB_PERIOD
ticks the timer expires. The model's choice of the tick (log 3) with R70's limit: a held cycle is one tick older, and
at the eighth tick the wait limit expires. With a cycle held while the timer runs both are counted in the one tick,
the held cycle first (log 3). -/
def Obligations.EmptyQueueIsOneTick : Prop :=
  (∀ s : State, s.pending = [] → s.host.held = none →
    (s.timerRuns = false → step s = .next s) ∧
    (s.timerRuns = true → s.scrub.ticks.toNat + 1 < s.scrub.period.toNat →
      step s = .next { s with scrub := { s.scrub with ticks := s.scrub.ticks + 1 } }) ∧
    (s.timerRuns = true → s.scrub.ticks.toNat + 1 = s.scrub.period.toNat → step s = exec .scrubTimerExpiry s)) ∧
  (∀ (s : State) (h : HeldCycle), s.pending = [] → s.host.held = some h →
    let aged := { s with host := { s.host with held := some { h with ticks := h.ticks + 1 } } }
    let counted := { s.scrub with ticks := s.scrub.ticks + 1 }
    (s.timerRuns = false →
      (h.ticks < 7 → step s = .next aged) ∧ (h.ticks = 7 → step s = exec .waitLimitExpiry s)) ∧
    (s.timerRuns = true → s.scrub.ticks.toNat + 1 < s.scrub.period.toNat →
      (h.ticks < 7 → step s = .next { aged with scrub := counted }) ∧
      (h.ticks = 7 → ∃ x, exec .waitLimitExpiry s = .next x ∧ step s = .next { x with scrub := counted })) ∧
    (s.timerRuns = true → s.scrub.ticks.toNat + 1 = s.scrub.period.toNat →
      (h.ticks < 7 → step s = exec .scrubTimerExpiry aged) ∧
      (h.ticks = 7 → ∃ x, exec .waitLimitExpiry s = .next x ∧ step s = exec .scrubTimerExpiry x)))

/-- Every command takes a next state: nothing stops the part; and its effect never touches the queue of commands that
wait. -/
def Obligations.ExecKeepsQueue : Prop :=
  ∀ (c : Instr) (s : State), ∃ t, exec c s = .next t ∧ t.pending = s.pending

/-! ### Reset, pins, the fence -/

/-- The values right after reset that the spec gives: the channels, the port, the scrub engine, the fault table, the
migration engine, events and interrupts, DIAG, SPARE_CTRL, the command engine, the device, the map, the commit unit,
the latch and the table port; no command in the command field reads as 0. That State.reset is power-on with both pins
high, the mount just started, is the model's choice (log 7). -/
def Obligations.ResetValues : Prop :=
  (∀ n, State.reset.chan n = Channel.reset) ∧
    Channel.reset.state = .closed ∧ Channel.reset.mode = .read ∧ Channel.reset.width = .word ∧
    Channel.reset.step = .up ∧ Channel.reset.policy = .stop ∧ Channel.reset.winFirst = 0 ∧ Channel.reset.winLast = 0 ∧
    Channel.reset.pointer = 0 ∧ Channel.reset.ptrHigh = 0 ∧ Channel.reset.fetchPtr = some 0 ∧
    Channel.reset.readAhead = [] ∧ Channel.reset.writeQ = [] ∧ Channel.reset.staging = 0 ∧
    Channel.reset.faultKind = .noFault ∧ Channel.reset.faultAddr = 0 ∧ Channel.reset.writeIgnored = false ∧
    Channel.reset.openRefused = none ∧ Channel.reset.view = .pointer ∧
    State.reset.port.rr = 0 ∧ State.reset.port.aging = 0 ∧ State.reset.port.grant = none ∧
    State.reset.scrub.wordAddr = 0 ∧ State.reset.scrub.backlog = 0 ∧ State.reset.scrub.urgent = false ∧
    State.reset.scrub.inLag = false ∧ State.reset.scrub.ticks = 0 ∧ State.reset.scrub.passes = 0 ∧
    State.reset.scrub.lagCount = 0 ∧ State.reset.scrub.poisonedSeen = 0 ∧ State.reset.scrub.range = none ∧
    State.reset.scrub.enable = true ∧ State.reset.scrub.poisonOnScrub = true ∧ State.reset.scrub.passEvent = false ∧
    State.reset.scrub.period = 156 ∧ State.reset.scrub.urgentLevel = 12 ∧
    (∀ r ∈ State.reset.faults.slots.toList, r = none) ∧ State.reset.faults.order = [] ∧
    State.reset.faults.untracked = 0 ∧ State.reset.faults.full = false ∧
    State.reset.spareCtrl = ⟨8, true, false, false⟩ ∧
    State.reset.mig.queue = [] ∧ State.reset.mig.flight = none ∧ State.reset.events = ⟨[], 0⟩ ∧
    State.reset.irq = ⟨0, false⟩ ∧ State.reset.diag = ⟨false, 0⟩ ∧ State.reset.cmd.running = none ∧
    State.reset.cmd.field = 0 ∧ State.reset.cmd.result = .ok ∧ State.reset.cmd.refused = false ∧
    State.reset.cmd.arg0 = 0 ∧ State.reset.cmd.arg1 = 0 ∧ State.reset.dev.state = .mounting ∧
    State.reset.dev.outcome = .unformatted ∧ State.reset.mount.word = 0 ∧
    State.reset.dev.dirReadonly = false ∧ State.reset.map = ⟨false, [], []⟩ ∧ State.reset.dir.gen = 0 ∧
    State.reset.dir.state = .idle ∧ State.reset.dir.copyA = ⟨false, 0⟩ ∧ State.reset.dir.copyB = ⟨false, 0⟩ ∧
    State.reset.dir.pendingFlag = false ∧ State.reset.dir.attempt = 1 ∧ State.reset.dir.target = none ∧
    State.reset.dir.snapshot = none ∧ State.reset.dir.word = 0 ∧ State.reset.filler = none ∧
    State.reset.host.held = none ∧ State.reset.host.latch = none ∧ State.reset.table = ⟨0, 0, ⟨0, 0, 0, 0⟩⟩

/-- Power-on with no grant in progress, by the levels of the pins. With both high the part has every reset value, the
straps sampled and a mount started; with nRESET low it stays in the reset condition; with nPFAIL low it is FENCED. The
array keeps its content. The levels as operands and the value last read are the model's choice (logs 7, 11). -/
def Obligations.PowerOnByPins : Prop :=
  ∀ (s : State) (asz : BitVec 2), s.port.grant = none →
    exec (.powerOn asz true true) s =
      .next { State.reset with pins := ⟨true, true, asz⟩, pCode := asz, array := s.array, choices := s.choices,
                               pending := s.pending } ∧
    exec (.powerOn asz false true) s =
      .next { State.reset with pins := ⟨false, true, asz⟩, pCode := asz, array := s.array, choices := s.choices,
                               pending := s.pending, mount := MountReader.idle, dev := Device.reset } ∧
    ∀ nr, exec (.powerOn asz nr false) s =
      .next { State.reset with
        pins := ⟨nr, false, asz⟩, pCode := asz, array := s.array, choices := s.choices, pending := s.pending,
        mount := MountReader.idle, dev := { Device.reset with state := .fenced, inReset := false },
        port := { Port.reset with stopped := true } }

/-- nRESET asserted: the reset condition, with the array, the sampled P and the straps kept; a held read ends with
0x0000, a held write is not accepted; while FENCED only the pin level changes. With a grant in progress that nPFAIL
has not stopped, that grant completes on the array first, in the same event by the model's choice (log 32): the
codeword of a WORD_WRITE, RAW_WRITE, directory, closing or filler write is there afterwards, that of a mirrored
WORD_WRITE at both addresses, a FILL word as a fresh zero word, and a fetch or another read leaves the array as it
was; the lines list its accesses (log 12). A held read ends with 0x0000 before that completion, its own fetch or not,
by the model's choice (log 28). nRESET released in the reset condition with nPFAIL high: the straps are sampled and a
mount starts from word 0 of copy A, with the map, the commit unit, the fault table and the migration queue at their
values for a mount. The value last read stays by the model's choice (log 11). -/
def Obligations.ResetPin : Prop :=
  let cleared := fun (s : State) (array : CellArray) (l : List ArrayAccess) (choices : Nat) => ({ State.reset with
    port := { Port.reset with accesses := l }
    pins := { s.pins with nReset := false }, pCode := s.pCode, array := array, choices := choices
    pending := s.pending, mount := MountReader.idle, dev := Device.reset
    host := { HostPort.reset with readData := match s.host.held with
      | some h => if h.write = none then 0 else s.host.readData
      | none => s.host.readData } } : State)
  (∀ s : State, s.port.grant = none →
    (s.dev.state ≠ .fenced → exec .nresetAssert s = .next (cleared s s.array [] s.choices)) ∧
    (s.dev.state = .fenced → exec .nresetAssert s = .next { s with pins := { s.pins with nReset := false } })) ∧
  (∀ (s : State) (g : Grant), s.port.grant = some g → s.port.stopped = false → s.dev.state ≠ .fenced →
    let ends := fun (array : CellArray) (l : List ArrayAccess) =>
      ∃ k, exec .nresetAssert s = .next (cleared s array (s.port.accesses ++ l) k)
    (∀ n l p k, g ∈ [.wordRead n l p, .rawRead n p, .mountRead p, .verify p k, .dirRead p, .fillerRead p] →
      ends s.array [.read (s.maOf p)]) ∧
    (∀ n p c, g ∈ [.wordWrite n p none c, .rawWrite n p c, .dirWrite p c, .dirClose p c, .fillerWrite p c] →
      ends (s.array.put (s.maOf p).toNat c) [.write (s.maOf p) c]) ∧
    (∀ n p mi c, g = .wordWrite n p (some mi) c →
      ends ((s.array.put (s.maOf p).toNat c).put (s.maOf mi.addr).toNat c)
        [.write (s.maOf p) c, .write (s.maOf mi.addr) c]) ∧
    (∀ p, g = .fill p →
      ends (s.array.put (s.maOf p).toNat (freshWord 0)) [.write (s.maOf p) (freshWord 0)])) ∧
  (∀ (s : State) (asz : BitVec 2), s.dev.inReset = true → s.pins.nPfail = true → s.dev.state ≠ .fenced →
    exec (.nresetRelease asz) s =
      .next { s with
        pins := ⟨true, true, asz⟩, pCode := asz, dev := { s.dev with inReset := false, state := .mounting },
        map := BlockMap.empty, dir := CommitUnit.reset, faults := FaultTable.empty,
        mig := { s.mig with queue := [], flight := none }, mount := MountReader.start, filler := none,
        scrub := { s.scrub with ticks := 0 } })

/-- nPFAIL asserted: with no grant in progress and no cycle held the device enters FENCED at once and every block
keeps its state but the tick count, in the reset condition too by the model's choice (log 35); with a grant in
progress the port stops and FENCED waits for its completion. nPFAIL released while FENCED acts as a pin reset with the
straps sampled: with nRESET high a mount starts, with nRESET low the part stays in the reset condition. That the
straps are sampled with nRESET low too is DEDUCED from R13 (log 25). The value last read stays by the model's choice
(log 11). -/
def Obligations.PowerFailPin : Prop :=
  (∀ s : State, s.dev.state ≠ .fenced →
    (s.port.grant = none → s.host.held = none → exec .npfailAssert s =
      .next { s with
        pins := { s.pins with nPfail := false }, port := { s.port with stopped := true },
        dev := { s.dev with state := .fenced, inReset := false }, scrub := { s.scrub with ticks := 0 } }) ∧
    (s.port.grant.isSome = true → exec .npfailAssert s =
      .next { s with pins := { s.pins with nPfail := false }, port := { s.port with stopped := true } })) ∧
  (∀ (s : State) (asz : BitVec 2), s.dev.state = .fenced → s.host.held = none →
    (s.pins.nReset = true → exec (.npfailRelease asz) s =
      .next { State.reset with
        pins := ⟨true, true, asz⟩, pCode := asz, array := s.array, choices := s.choices, pending := s.pending,
        host := { HostPort.reset with readData := s.host.readData } }) ∧
    (s.pins.nReset = false → exec (.npfailRelease asz) s =
      .next { State.reset with
        pins := ⟨false, true, asz⟩, pCode := asz, array := s.array, choices := s.choices, pending := s.pending,
        mount := MountReader.idle, dev := Device.reset,
        host := { HostPort.reset with readData := s.host.readData } }))

/-- The entry into FENCED: it comes when nPFAIL has stopped the port and no grant is in progress. A held read returns
0x0000; a held write is not accepted and sets WRITE_IGNORED; every block keeps its state but the tick count. The row
by itself is the model's choice (log 2). -/
def Obligations.FenceEntered : Prop :=
  ∀ s : State, s.port.stopped = true → s.port.grant = none → s.dev.state ≠ .fenced → s.pins.nPfail = false →
    (s.host.held = none → exec .enterFenced s =
      .next { s with dev := { s.dev with state := .fenced, inReset := false }, scrub := { s.scrub with ticks := 0 } }) ∧
    (∀ h, s.host.held = some h → h.write = none → exec .enterFenced s =
      .next { s with
        dev := { s.dev with state := .fenced, inReset := false }, scrub := { s.scrub with ticks := 0 },
        host := { s.host with held := none, readData := 0 } }) ∧
    (∀ h v, s.host.held = some h → h.write = some v → exec .enterFenced s =
      .next (({ s with
        dev := { s.dev with state := .fenced, inReset := false }, scrub := { s.scrub with ticks := 0 },
        host := { s.host with held := none } } : State).setChan h.chan
          { s.chan h.chan with writeIgnored := true }))

/-- While FENCED with no grant in progress the array is left alone: no step, the tick of an empty queue included (the
model's, log 3), but one that takes power-on, the release of nPFAIL or a decaying cell, changes the array, drives it,
begins a grant or leaves FENCED. -/
def Obligations.FencedLeavesTheArrayAlone : Prop :=
  ∀ s t : State, s.dev.state = .fenced → s.port.grant = none → step s = .next t →
    (∀ c, s.pending.head? = some c →
      (∀ asz nr np, c ≠ .powerOn asz nr np) ∧ (∀ asz, c ≠ .npfailRelease asz) ∧ (∀ a b, c ≠ .cellDecay a b)) →
    t.array = s.array ∧ t.port.accesses = s.port.accesses ∧ t.arrayPins = ArrayPins.idle ∧ t.port.grant = none ∧
      t.dev.state = .fenced

/-- Bus cycles while FENCED: a data read returns 0x0000, a data write sets WRITE_IGNORED, CTRL, pointer and window
writes have no effect, a COMMAND write is refused, and SPARE_CTRL, EVENT_POP, IRQ_PENDING, IRQ_ENABLE and STATUS
writes act. -/
def Obligations.FencedBusCycles : Prop :=
  ∀ (s : State) (n : Fin 4) (v : Half), s.busFree → s.dev.state = .fenced →
    (exec (.dataLoRead n) s = .next { s with host := { s.host with latch := none, readData := 0 } }) ∧
    (exec (.dataHiRead n) s = .next { s with host := { s.host with latch := none, readData := 0 } }) ∧
    (exec (.dataLoWrite n v) s = .next (s.latched.setChan n { s.chan n with writeIgnored := true })) ∧
    (exec (.dataHiWrite n v) s = .next (s.latched.setChan n { s.chan n with writeIgnored := true })) ∧
    (exec (.channelOpen n v) s = .next s.latched) ∧ (exec (.channelClose n v) s = .next s.latched) ∧
    (exec (.pointerWrite n v) s = .next s.latched) ∧
    (exec (.registerWrite (BitVec.ofNat 6 (0x14 + 8 * n.val)) v) s = .next s.latched) ∧
    (exec (.registerWrite (BitVec.ofNat 6 (0x15 + 8 * n.val)) v) s = .next s.latched) ∧
    (exec (.registerWrite 0x36 v) s = .next { s.latched with spareCtrl := spareCtrlOf v }) ∧
    (∃ t, exec (.undefinedCommand v) s = .next t ∧ t.cmd.refused = true ∧ t.cmd.running = s.cmd.running ∧
      t.events = s.events ∧ t.irq = s.irq) ∧
    (exec (.eventPop v) s = .next { s.latched with events := s.events.pop }) ∧
    (exec (.irqPendingWrite v) s =
      .next { s.latched with irq := { s.irq with cmdDone := s.irq.cmdDone && !v.getLsbD 5 } }) ∧
    (exec (.irqEnableWrite v) s =
      .next { s.latched with irq := { s.irq with enable := v.extractLsb' 0 7 } }) ∧
    (exec (.statusWrite n v) s = .next (s.latched.setChan n { s.chan n with
      view := if v.getLsbD 0 then .faultAddress else .pointer, writeIgnored := false }))

/-! ### What stays true over every step -/

/-- R162's bound: over every step the event queue holds at most 16 records, and 16 whenever records were lost. -/
def Obligations.EventQueueStaysLegal : Prop :=
  ∀ s t : State, s.events.legal → step s = .next t → t.events.legal

/-- The array keeps its canonical form over every step. The list and what an unlisted location holds are the model's
(log 6). -/
def Obligations.ArrayStaysCanonical : Prop :=
  ∀ s t : State, s.array.wf = true → step s = .next t → t.array.wf = true

/-- Every channel's read-ahead and write queues keep their bounds over every step, and a channel that is CLOSED,
DRAINING or in a write mode holds no fetched word. -/
def Obligations.ChannelQueuesStayBounded : Prop :=
  ∀ s t : State, s.chansLegal → step s = .next t → t.chansLegal

/-- The migration queue over every step: at most 8 logical blocks, never the same twice, never the one in flight. -/
def Obligations.MigrationQueueStaysDistinct : Prop :=
  ∀ s t : State, s.mig.legal → step s = .next t → t.mig.legal

/-- The state right after reset meets every invariant stated above. -/
def Obligations.ResetMeetsInvariants : Prop :=
  State.reset.events.legal ∧ State.reset.array.wf = true ∧ State.reset.chansLegal ∧ State.reset.mig.legal

/-- The array changes only by the completion of a grant, by a pin reset or power-on that completes one, or by a
decaying cell: no bus cycle, timer event or decision writes it. -/
def Obligations.OnlyGrantsWriteTheArray : Prop :=
  ∀ (c : Instr) (s t : State), exec c s = .next t → t.array ≠ s.array →
    (∃ a b, c = .cellDecay a b) ∨
      (s.port.grant.isSome = true ∧ (c = .nresetAssert ∨ (∃ asz nr np, c = .powerOn asz nr np) ∨
        c ∈ [.wordWriteDone, .rawWriteDone, .mergeDone, .copyDone, .scrubWordDone, .commitWriteDone,
             .closingWriteDone, .fillDone, .formatCopyGrantDone]))

/-- The IRQ pin: high while at least one source is both pending and enabled, low otherwise and in the reset condition;
while FENCED it follows the same rule, with nRESET low too (DEDUCED, log 18). The seven sources of IRQ_PENDING: EVENT,
CH0 to CH3, CMD_DONE, DIR_RO from bit 0 up. -/
def Obligations.IrqPinFollowsSources : Prop :=
  (∀ s : State, s.irqPin = true ↔
    s.dev.inReset = false ∧ ∃ i, i < 7 ∧ s.irqPending.getLsbD i = true ∧ s.irq.enable.getLsbD i = true) ∧
  (∀ s : State,
    (s.irqPending.getLsbD 0 = true ↔ s.events.queue ≠ []) ∧
    (∀ n : Fin 4, s.irqPending.getLsbD (n.val + 1) = true ↔ (s.chan n).state = .faulted ∨ (s.chan n).state = .ended) ∧
    (s.irqPending.getLsbD 5 = true ↔ s.irq.cmdDone = true) ∧
    (s.irqPending.getLsbD 6 = true ↔ s.dev.dirReadonly = true))

/-! ### The check code and the array -/

/-- Any one flipped bit of a codeword with the encoder's check bits is located and inverted: the data and tag come
back, and the class is CORRECTED, or POISONED with the corrected flag where the tag is 1. Any two flipped bits of such
a codeword classify UNCORRECTABLE. The check matrix is free within the laws of R3 (log 5). -/
def Obligations.OneFlipCorrectedTwoDetected : Prop :=
  (∀ (d : Word) (tag : Bool) (i : Nat), i < 40 →
     decodeWord (flipBit { data := d, tag := tag, check := encode d tag } i) =
       { cls := if tag then .poisoned else .corrected, correctedFlag := true, data := d, tag := tag }) ∧
  (∀ (d : Word) (tag : Bool) (i j : Nat), i < 40 → j < 40 → i ≠ j →
     (decodeWord (flipBit (flipBit { data := d, tag := tag, check := encode d tag } i) j)).cls = .uncorrectable)

/-- The forms the part writes: a fresh word decodes CLEAN to its data, the poisoned form decodes POISONED; a fresh
zero word has side bits 0x00 and the poisoned form 0xB5. The array's lines: a read access has nMCS and nMOE low and MD
undriven, a write access nMCS and nMWE low with the data on MD bits 31 to 0, the tag on 32, the check bits on 39 to
33; between accesses and after the last all three are high and MD is undriven. That the lines are listed by the grant
last completed is the model's form (log 12). -/
def Obligations.WrittenFormsDecode : Prop :=
  (∀ d, decodeWord (freshWord d) = { cls := .clean, correctedFlag := false, data := d, tag := false }) ∧
    decodeWord poisonedWord = { cls := .poisoned, correctedFlag := false, data := 0, tag := true } ∧
    sideBits (freshWord 0) = 0x00 ∧ sideBits poisonedWord = 0xB5 ∧
    (∀ a, (ArrayAccess.read a).pins = ⟨false, false, true, some a, none⟩) ∧
    (∀ a c, ∃ md : BitVec 40, (ArrayAccess.write a c).pins = ⟨false, true, false, some a, some md⟩ ∧
      md.extractLsb' 0 32 = c.data ∧ md.getLsbD 32 = c.tag ∧ md.extractLsb' 33 7 = c.check) ∧
    (∀ s : State, s.arrayPins = ⟨true, true, true, none, none⟩ ∧
      ∀ x y, s.port.accesses = [x, y] → s.arrayLines =
        [⟨true, true, true, none, none⟩, x.pins, ⟨true, true, true, none, none⟩, y.pins,
         ⟨true, true, true, none, none⟩])

/-- CELL_DECAY inverts the one bit named of the one location named; every other location reads as before and nothing
else of the state changes. -/
def Obligations.CellDecayFlipsOneBit : Prop :=
  ∀ (s : State) (a : Addr) (bit : BitVec 6), s.array.wf = true → a.toNat < s.physBlocks * 256 → bit.toNat < 40 →
    ∃ arr, exec (.cellDecay a bit) s = .next { s with array := arr } ∧
      ∀ k, CellArray.get arr k = if k = a.toNat then flipBit (s.array.get k) bit.toNat else s.array.get k

/-! ### The directory -/

/-- The 256 words of a sound record, stored in fresh form and read in order, give VALID under the P they record, and
the mount takes from them the generation, the entries and the spare states recorded. Under another real P the same
words give FOREIGN. A copy whose attempt has not reached its closing write holds zero at word 0 and is INVALID at the
mount. -/
def Obligations.WrittenCopyMountsBack : Prop :=
  (∀ r : Snapshot, r.Sound →
    (foldOf r.wordAt).verdict r.blocks = .valid ∧ (foldOf r.wordAt).gen = r.gen ∧
    (foldOf r.wordAt).entries = r.entries ∧ (foldOf r.wordAt).spares = r.spares ∧
    ∀ p, p ≠ r.blocks → (foldOf r.wordAt).verdict p = .foreign) ∧
  (∀ (r : Snapshot) (p : Nat), (foldOf r.attemptWord).verdict p = .invalid)

/-! ### Channels: CTRL, pointer, STATUS -/

/-- A CTRL write with OPEN clear to a CLOSED channel loads mode, width (code 3 as WORD), step and end policy, and
changes nothing else. An open of a channel that is not CLOSED: refused with NOT_CLOSED in DRAINING, without effect in
OPEN and END; the settings in force stay. A close from OPEN, END or FAULT: fetched words are discarded, queued writes
stay, and the channel is CLOSED when none waits, DRAINING otherwise. -/
def Obligations.CtrlByState : Prop :=
  (∀ (s : State) (n : Fin 4) (v : Half), s.busOpen → ctrlOpenBit v = false → (s.chan n).state = .closed →
     exec (.channelSettingsLoad n v) s = .next (s.latched.setChan n { s.chan n with
       mode := if v.getLsbD 1 then (if v.getLsbD 0 then .rawWrite else .rawRead)
         else (if v.getLsbD 0 then .write else .read)
       width := if v.extractLsb' 2 2 = 1 then .halfLow else if v.extractLsb' 2 2 = 2 then .halfHigh else .word
       step := if v.getLsbD 4 then .down else .up
       policy := if v.getLsbD 5 then .wrap else .stop })) ∧
  (∀ (s : State) (n : Fin 4) (v : Half), s.busOpen → ctrlOpenBit v = true →
    ((s.chan n).state = .draining → exec (.channelOpen n v) s =
      .next (s.latched.setChan n { s.chan n with openRefused := some .notClosed })) ∧
    ((s.chan n).state = .opened ∨ (s.chan n).state = .ended → exec (.channelOpen n v) s = .next s.latched)) ∧
  (∀ (s : State) (n : Fin 4) (v : Half), s.busOpen → ctrlOpenBit v = false →
    (s.chan n).state = .opened ∨ (s.chan n).state = .ended ∨ (s.chan n).state = .faulted →
    exec (.channelClose n v) s = .next (s.latched.setChan n { s.chan n with
      readAhead := [], state := if (s.chan n).writeQ = [] then .closed else .draining,
      holds := !(s.chan n).reads && (s.chan n).holds }))

/-- An open of a CLOSED channel: the settings are loaded, then the first condition that fails refuses the open with
its reason; when none fails the channel opens with empty queues, no fault, and in the read modes the fetch pointer at
the pointer. In MOUNTING and FORMATTING every such open is refused with DEVICE_STATE; that this stands before
RAW_DISABLED for a raw open with RAW_ENABLE clear is DEDUCED (log 31). -/
def Obligations.OpenIsCheckedInOrder : Prop :=
  ∀ (s : State) (n : Fin 4) (v : Half) (c : Channel), s.busOpen → ctrlOpenBit v = true → (s.chan n).state = .closed →
    c = (s.chan n).loadSettings v →
    let raw := c.mode = .rawRead ∨ c.mode = .rawWrite
    let stateOk := s.dev.state = .ready ∧ c.mode ≠ .rawWrite ∨
      (s.dev.state = .unformatted ∨ s.dev.state = .foreign) ∧ raw
    let limit := if c.mode = .rawRead ∨ c.mode = .rawWrite then s.physBlocks else s.logicalBlocks
    let windowOk := c.winFirst ≤ c.winLast ∧ c.winLast.toNat < limit
    let pointerOk := c.winFirst.toNat * 256 ≤ c.pointer.toNat ∧ c.pointer.toNat ≤ c.winLast.toNat * 256 + 255
    let refused := fun r => exec (.channelOpen n v) s = .next (s.latched.setChan n { c with openRefused := some r })
    let midway := s.dev.state = .mounting ∨ s.dev.state = .formatting
    (raw ∧ s.diag.rawEnable = false ∧ ¬ midway → refused .rawDisabled) ∧
    (midway → refused .deviceState) ∧
    (¬ (raw ∧ s.diag.rawEnable = false) ∧ ¬ stateOk → refused .deviceState) ∧
    (¬ (raw ∧ s.diag.rawEnable = false) ∧ stateOk ∧ ¬ windowOk → refused .window) ∧
    (¬ (raw ∧ s.diag.rawEnable = false) ∧ stateOk ∧ windowOk ∧ ¬ pointerOk → refused .pointer) ∧
    (¬ (raw ∧ s.diag.rawEnable = false) ∧ stateOk ∧ windowOk ∧ pointerOk →
      exec (.channelOpen n v) s = .next (s.latched.setChan n { c with
        state := .opened, readAhead := [], writeQ := [], faultKind := .noFault, faultAddr := 0,
        writeIgnored := false, openRefused := none,
        fetchPtr := if c.mode = .read ∨ c.mode = .rawRead then some c.pointer else c.fetchPtr }))

/-- RESUME with RETRY in FAULT: the pointer goes to the fault address; inside the window the channel returns to OPEN
and, in a read mode, fetches from there; outside it is in FAULT with POINTER_OUTSIDE. RESUME with SKIP in FAULT: the
pointer goes one step past the fault address; at the far edge of a STOP window the channel enters END there instead. A
step of an address: +1 or -1; at the far edge of the window to the near edge under WRAP, and nowhere under STOP. -/
def Obligations.ResumeFromFault : Prop :=
  (∀ (s : State) (n : Fin 4) (v : Half), s.busOpen → ctrlOpenBit v = true → ctrlResumeBits v = 1 →
    (s.chan n).state = .faulted →
    exec (.resumeRetry n v) s = .next (s.latched.setChan n
      (if (s.chan n).inWindow (s.chan n).faultAddr then
        { s.chan n with
          readAhead := [], holds := !(s.chan n).reads && (s.chan n).holds, pointer := (s.chan n).faultAddr,
          state := .opened, faultKind := .noFault,
          fetchPtr := if (s.chan n).reads then some (s.chan n).faultAddr else (s.chan n).fetchPtr }
      else
        { s.chan n with
          readAhead := [], holds := !(s.chan n).reads && (s.chan n).holds, pointer := (s.chan n).faultAddr,
          faultKind := .pointerOutside }))) ∧
  (∀ (s : State) (n : Fin 4) (v : Half), s.busOpen → ctrlOpenBit v = true → ctrlResumeBits v = 2 →
    (s.chan n).state = .faulted →
    ((s.chan n).faultAddr = (s.chan n).farEdge → (s.chan n).policy = .stop →
      exec (.resumeSkip n v) s = .next (s.latched.setChan n { s.chan n with
        readAhead := [], holds := !(s.chan n).reads && (s.chan n).holds, pointer := (s.chan n).faultAddr,
        state := .ended })) ∧
    (∀ a, (s.chan n).stepped (s.chan n).faultAddr = some a → (s.chan n).inWindow a = true →
      exec (.resumeSkip n v) s = .next (s.latched.setChan n { s.chan n with
        readAhead := [], holds := !(s.chan n).reads && (s.chan n).holds, pointer := a, state := .opened,
        faultKind := .noFault, fetchPtr := if (s.chan n).reads then some a else (s.chan n).fetchPtr }))) ∧
  (∀ (c : Channel) (a : Addr), c.inWindow a = true →
    (a = c.farEdge → c.policy = .stop → c.stepped a = none) ∧
    (a = c.farEdge → c.policy = .wrap → c.stepped a = some c.nearEdge) ∧
    (a ≠ c.farEdge → c.step = .up → c.stepped a = some (a + 1) ∧ c.inWindow (a + 1) = true) ∧
    (a ≠ c.farEdge → c.step = .down → c.stepped a = some (a - 1) ∧ c.inWindow (a - 1) = true))

/-- A pointer write: the address is the pointer-high stage above the value. CLOSED and DRAINING take it; OPEN, END and
FAULT discard the fetched words, move the fetch pointer, and outside the window give FAULT with POINTER_OUTSIDE. -/
def Obligations.PointerWriteByState : Prop :=
  ∀ (s : State) (n : Fin 4) (v : Half) (a : Addr), s.busOpen →
    a.toNat = (s.chan n).ptrHigh.toNat * 65536 + v.toNat →
    let c := s.chan n
    let moved := { c with readAhead := [], holds := !c.reads && c.holds, pointer := a, fetchPtr := some a }
    exec (.pointerWrite n v) s = .next (s.latched.setChan n
      (match c.state, c.inWindow a with
      | .closed, _ => { c with pointer := a }
      | .draining, _ => { c with pointer := a }
      | .opened, true => moved
      | .ended, true => { moved with state := .opened }
      | .faulted, true => { moved with faultAddr := a }
      | .opened, false => { moved with state := .faulted, faultKind := .pointerOutside, faultAddr := a }
      | .ended, false => { moved with state := .faulted, faultKind := .pointerOutside, faultAddr := a }
      | .faulted, false => { moved with faultKind := .pointerOutside, faultAddr := a }))

/-! ### Channels: data registers and held cycles -/

/-- A data-register read of a READ or RAW_READ channel in OPEN whose head entry waits: DATA_LO returns its low half
and changes nothing else of the channel; DATA_HI returns the high half, consumes the entry and steps the pointer, or
enters END at the far edge under STOP. Raw entries load DIAG's side bits. -/
def Obligations.DataReadDelivers : Prop :=
  ∀ (s : State) (n : Fin 4) (e : ReadEntry) (rest : List ReadEntry), s.busOpen → (s.chan n).reads = true →
    (s.chan n).state = .opened → (s.chan n).readAhead = e :: rest → (∀ x ∈ rest, x.mark = none) →
    exec (.dataLoRead n) s =
      .next { s with host := { s.host with latch := none, readData := e.data.extractLsb' 0 16 },
                     diag := { s.diag with side := e.side.getD s.diag.side } } ∧
    exec (.dataHiRead n) s =
      .next (({ s with host := { s.host with latch := none, readData := e.data.extractLsb' 16 16 },
                       diag := { s.diag with side := e.side.getD s.diag.side } } : State).setChan n
        (match (s.chan n).stepped (s.chan n).pointer with
        | some a => { s.chan n with readAhead := rest, pointer := a }
        | none => { s.chan n with readAhead := rest, state := .ended }))

/-- Consuming the head puts an OPEN channel whose next entry carries a fault mark in FAULT with the mark as kind, the
fault address at the new pointer, and posts UNCORRECTABLE or POISON_READ. -/
def Obligations.MarkedEntryFaults : Prop :=
  ∀ (s : State) (n : Fin 4) (e x : ReadEntry) (m : ReadMark) (a : Addr), s.busOpen → (s.chan n).reads = true →
    (s.chan n).state = .opened → (s.chan n).readAhead = [e, x] → x.mark = some m →
    (s.chan n).stepped (s.chan n).pointer = some a →
    ∃ t, exec (.dataHiRead n) s = .next t ∧ t.host.readData = e.data.extractLsb' 16 16 ∧
      t.chan n = { s.chan n with
        readAhead := [x], pointer := a, state := .faulted, faultAddr := a,
        faultKind := match m with
          | .uncorrectable => .uncorrectable
          | .poisoned => .poisoned } ∧
      t.events = s.events.offer
        { kind := match m with
            | .uncorrectable => .uncorrectable
            | .poisoned => .poisonRead
          source := hostSource n, phys := x.phys, logical := some (blockOf a), offset := some (offsetOf a), detail := 0 }

/-- Data-register reads outside OPEN, or in a write mode, return at once with no other effect: 0x0000 in a READ or
RAW_READ channel in END, FAULT, DRAINING or CLOSED; the staging half at DATA_LO and 0x0000 at DATA_HI in a WRITE or
RAW_WRITE channel in any state. -/
def Obligations.OtherDataReads : Prop :=
  ∀ (s : State) (n : Fin 4), s.busOpen →
    ((s.chan n).reads = true → (s.chan n).state ≠ .opened →
      exec (.dataLoRead n) s = .next { s with host := { s.host with latch := none, readData := 0 } } ∧
      exec (.dataHiRead n) s = .next { s with host := { s.host with latch := none, readData := 0 } }) ∧
    ((s.chan n).reads = false →
      exec (.dataLoRead n) s = .next { s with host := { s.host with latch := none, readData := (s.chan n).staging } } ∧
      exec (.dataHiRead n) s = .next { s with host := { s.host with latch := none, readData := 0 } })

/-- A data-register cycle of an OPEN channel that finds no word, or no room, is held with WAIT asserted and changes
nothing else: a read with the read-ahead queue empty; with the write queue full a DATA_HI write of width WORD or
HALF_HIGH, a DATA_LO write of HALF_LOW, and a DATA_HI write in RAW_WRITE mode. -/
def Obligations.CycleIsHeld : Prop :=
  ∀ (s : State) (n : Fin 4) (v : Half), s.busOpen → (s.chan n).state = .opened →
    ((s.chan n).reads = true → (s.chan n).readAhead = [] →
      (∃ t, exec (.dataLoRead n) s = .next t ∧ t.waitPin = true ∧
        t = { s with host := { s.host with latch := none, held := some ⟨n, false, none, 0⟩ } }) ∧
      (∃ t, exec (.dataHiRead n) s = .next t ∧ t.waitPin = true ∧
        t = { s with host := { s.host with latch := none, held := some ⟨n, true, none, 0⟩ } })) ∧
    ((s.chan n).mode = .write ∧ (s.chan n).width ≠ .halfLow ∨ (s.chan n).mode = .rawWrite →
      4 ≤ (s.chan n).writeQ.length →
      ∃ t, exec (.dataHiWrite n v) s = .next t ∧ t.waitPin = true ∧
        t = { s with host := { s.host with latch := none, held := some ⟨n, true, some v, 0⟩ } }) ∧
    ((s.chan n).mode = .write → (s.chan n).width = .halfLow → 4 ≤ (s.chan n).writeQ.length →
      ∃ t, exec (.dataLoWrite n v) s = .next t ∧ t.waitPin = true ∧
        t = { s with host := { s.host with latch := none, held := some ⟨n, false, some v, 0⟩ } })

/-- What data-register writes mean, by channel state, mode and width. In CLOSED, DRAINING, END and FAULT both
registers are ignored in any mode. In OPEN: DATA_LO of width WORD and of RAW_WRITE loads the staging half; with room
in the queue DATA_HI of WORD offers the word with the staging half below, HALF_LOW offers at DATA_LO and HALF_HIGH at
DATA_HI, and DATA_HI of RAW_WRITE offers the raw word with DIAG's side bits; the register a half width does not use is
ignored, and the read modes ignore both. An ignored write sets WRITE_IGNORED and changes nothing else. -/
def Obligations.DataWritesByWidth : Prop :=
  ∀ (s : State) (n : Fin 4) (v : Half), s.busOpen →
    let c := s.chan n
    let opened := c.state = .opened
    let room := opened ∧ c.writeQ.length < 4
    let ignored := s.latched.setChan n { c with writeIgnored := true }
    (¬ opened ∨ c.reads = true →
      exec (.dataLoWrite n v) s = .next ignored ∧ exec (.dataHiWrite n v) s = .next ignored) ∧
    (opened → c.mode = .write ∧ c.width = .word ∨ c.mode = .rawWrite →
      exec (.dataLoWrite n v) s = .next (s.latched.setChan n { c with staging := v })) ∧
    (room → c.mode = .write → c.width = .word →
      exec (.dataHiWrite n v) s = .next (s.latched.accept n (.word (v ++ c.staging)))) ∧
    (room → c.mode = .rawWrite →
      exec (.dataHiWrite n v) s = .next (s.latched.accept n (.raw (v ++ c.staging) s.diag.side))) ∧
    (room → c.mode = .write → c.width = .halfLow →
      exec (.dataLoWrite n v) s = .next (s.latched.accept n (.halfLow v))) ∧
    (room → c.mode = .write → c.width = .halfHigh →
      exec (.dataHiWrite n v) s = .next (s.latched.accept n (.halfHigh v))) ∧
    (opened → c.mode = .write → c.width = .halfLow → exec (.dataHiWrite n v) s = .next ignored) ∧
    (opened → c.mode = .write → c.width = .halfHigh → exec (.dataLoWrite n v) s = .next ignored)

/-- Acceptance of a logical write at channel n, of width WORD, HALF_LOW or HALF_HIGH: the entry joins the tail with
the pointer as address and a new position; the pointer steps, or the channel enters END; a READ channel drops what it
fetched of that word and what lies behind it, or a fetch of it in progress; every other channel, and all else, stays.
A RAW_WRITE acceptance does the same at its own channel and drops nothing elsewhere. The numbering of acceptances is
the model's (log 21). -/
def Obligations.AcceptanceDropsTheWordElsewhere : Prop :=
  ∀ (s : State) (n : Fin 4) (v : Half), s.busOpen → (s.chan n).state = .opened → (s.chan n).writeQ.length < 4 →
    let c := s.chan n
    let taken := fun (w : WriteValue) => { c with
      writeQ := c.writeQ ++ [{ addr := c.pointer, value := w, pos := s.nextPos }]
      pointer := (c.stepped c.pointer).getD c.pointer
      state := if (c.stepped c.pointer).isSome then .opened else .ended }
    let logical := fun (i : Instr) (w : WriteValue) => ∃ t, exec i s = .next t ∧ t.chan n = taken w ∧
      (∀ m, m ≠ n → (s.chan m).mode ≠ .read → t.chan m = s.chan m) ∧
      (∀ m i, m ≠ n → (s.chan m).mode = .read →
        (s.chan m).readAhead.findIdx? (fun e => e.addr == c.pointer) = some i →
        t.chan m = { s.chan m with
          readAhead := (s.chan m).readAhead.take i, fetchPtr := some c.pointer, holds := false }) ∧
      (∀ m, m ≠ n → (s.chan m).mode = .read → (∀ e ∈ (s.chan m).readAhead, e.addr ≠ c.pointer) →
        t.chan m = { s.chan m with
          holds := (s.chan m).holds && !decide ((s.chan m).fetchPtr = some c.pointer) }) ∧
      t.nextPos = s.nextPos + 1 ∧ t = { s.latched with chans := t.chans, nextPos := t.nextPos }
    (c.mode = .write → c.width = .halfLow → logical (.dataLoWrite n v) (.halfLow v)) ∧
    (c.mode = .write → c.width = .halfHigh → logical (.dataHiWrite n v) (.halfHigh v)) ∧
    (c.mode = .write → c.width = .word → logical (.dataHiWrite n v) (.word (v ++ c.staging))) ∧
    (c.mode = .rawWrite → exec (.dataHiWrite n v) s =
      .next (({ s.latched with nextPos := s.nextPos + 1 } : State).setChan n
        (taken (.raw (v ++ c.staging) s.diag.side))))

/-- HELD_CYCLE_END: a held read of DATA_LO or DATA_HI ends with its half when a head entry waits, DATA_HI consuming
the entry and stepping the pointer, or entering END, or FAULT at a marked next entry; a raw entry loads DIAG's side
bits. A held write of width WORD, HALF_LOW or HALF_HIGH or of RAW_WRITE is accepted when room has appeared. Either
ends, with 0x0000 or WRITE_IGNORED, when the channel has left OPEN, and stays held while no entry waits or no room is
there. A DRAINING channel whose write queue is empty becomes CLOSED. The rows by themselves are the model's choice
(log 2). -/
def Obligations.HeldCycleEnds : Prop :=
  (∀ (s : State) (h : HeldCycle), s.host.held = some h → s.dev.state ≠ .fenced →
    let c := s.chan h.chan
    let answered := fun (x : Half) (e : ReadEntry) => ({ s with
      host := { s.host with held := none, readData := x }
      diag := { s.diag with side := e.side.getD s.diag.side } } : State)
    let accepted := fun (w : WriteValue) => exec .heldCycleEnd s =
      .next (({ s with host := { s.host with held := none } } : State).accept h.chan w)
    (h.write = none → c.state ≠ .opened →
      exec .heldCycleEnd s = .next { s with host := { s.host with held := none, readData := 0 } }) ∧
    (h.write = none → c.state = .opened → c.readAhead = [] → exec .heldCycleEnd s = .next s) ∧
    (∀ e rest, h.write = none → c.state = .opened → c.readAhead = e :: rest →
      (h.high = false → exec .heldCycleEnd s = .next (answered (e.data.extractLsb' 0 16) e)) ∧
      (h.high = true → (∀ x ∈ rest, x.mark = none) →
        exec .heldCycleEnd s = .next ((answered (e.data.extractLsb' 16 16) e).setChan h.chan
          (match c.stepped c.pointer with
          | some a => { c with readAhead := rest, pointer := a }
          | none => { c with readAhead := rest, state := .ended }))) ∧
      (∀ x m a, h.high = true → rest = [x] → x.mark = some m → c.stepped c.pointer = some a →
        exec .heldCycleEnd s = .next (({ answered (e.data.extractLsb' 16 16) e with
          events := s.events.offer
            { kind := match m with
                | .uncorrectable => .uncorrectable
                | .poisoned => .poisonRead
              source := hostSource h.chan, phys := x.phys, logical := some (blockOf a), offset := some (offsetOf a)
              detail := 0 } } : State).setChan h.chan { c with
            readAhead := [x], pointer := a, state := .faulted, faultAddr := a
            faultKind := match m with
              | .uncorrectable => .uncorrectable
              | .poisoned => .poisoned }))) ∧
    (∀ v, h.write = some v → c.state ≠ .opened → exec .heldCycleEnd s =
      .next (({ s with host := { s.host with held := none } } : State).setChan h.chan
        { c with writeIgnored := true })) ∧
    (∀ v, h.write = some v → c.state = .opened → 4 ≤ c.writeQ.length → exec .heldCycleEnd s = .next s) ∧
    (∀ v, h.write = some v → c.state = .opened → c.writeQ.length < 4 →
      (c.mode = .write → c.width = .word → h.high = true → accepted (.word (v ++ c.staging))) ∧
      (c.mode = .write → c.width = .halfLow → h.high = false → accepted (.halfLow v)) ∧
      (c.mode = .write → c.width = .halfHigh → h.high = true → accepted (.halfHigh v)) ∧
      (c.mode = .rawWrite → h.high = true → accepted (.raw (v ++ c.staging) s.diag.side)))) ∧
  (∀ (s : State) (n : Fin 4), (s.chan n).state = .draining → (s.chan n).writeQ = [] →
    exec (.drainComplete n) s = .next (s.setChan n { s.chan n with state := .closed }))

/-- When the wait limit expires on a held cycle the channel enters FAULT with kind WAIT_EXPIRED and the fault address
at the pointer, its interrupt source is pending, and no event is posted. A held read returns 0x0000 and the read-ahead
queue is discarded; a held write is not accepted and the write queue keeps its entries. -/
def Obligations.WaitExpiryFaults : Prop :=
  ∀ (s : State) (h : HeldCycle), s.host.held = some h →
    let c := s.chan h.chan
    (h.write = none → ∃ t, exec .waitLimitExpiry s = .next t ∧
      t = ({ s with host := { s.host with held := none, readData := 0 } } : State).setChan h.chan { c with
        readAhead := [], holds := !c.reads && c.holds, state := .faulted, faultKind := .waitExpired,
        faultAddr := c.pointer } ∧
      t.chanIrq h.chan = true ∧ t.events = s.events) ∧
    (∀ v, h.write = some v → ∃ t, exec .waitLimitExpiry s = .next t ∧
      t = ({ s with host := { s.host with held := none } } : State).setChan h.chan { c with
        state := .faulted, faultKind := .waitExpired, faultAddr := c.pointer } ∧
      t.chanIrq h.chan = true ∧ t.events = s.events)

/-! ### Commands -/

/-- The eight command rows are COMMAND writes of their codes, and a REGISTER_WRITE of COMMAND is the same write
(DEDUCED, log 19). A COMMAND write is refused while FENCED, while MOUNTING with no command in progress, and while a
command is in progress unless it is SOFT_RESET. REFUSED is set; with no command in progress the command field takes
the low byte and the result NOT_READY; with one in progress it carries on with its field and result. Nothing else
changes. -/
def Obligations.CommandRefused : Prop :=
  (∀ (s : State) (v : Half),
    exec .format s = exec (.undefinedCommand 0x21) s ∧ exec .remount s = exec (.undefinedCommand 0x22) s ∧
    exec .commit s = exec (.undefinedCommand 0x31) s ∧ exec .spareBlock s = exec (.undefinedCommand 0x41) s ∧
    exec .cancelSpare s = exec (.undefinedCommand 0x42) s ∧ exec .scrubRange s = exec (.undefinedCommand 0x51) s ∧
    exec .clearFaults s = exec (.undefinedCommand 0x61) s ∧ exec .softReset s = exec (.undefinedCommand 0x7E) s ∧
    exec (.registerWrite 0x02 v) s = exec (.undefinedCommand v) s) ∧
  (∀ (s : State) (v : Half), s.busFree →
    (s.cmd.running = none → s.dev.state = .fenced ∨ s.dev.state = .mounting →
      exec (.undefinedCommand v) s = .next { s.latched with
        cmd := { s.cmd with refused := true, field := v.extractLsb' 0 8, result := .notReady } }) ∧
    (s.cmd.running.isSome = true → s.dev.state = .fenced ∨ v ≠ 0x7E →
      exec (.undefinedCommand v) s = .next { s.latched with cmd := { s.cmd with refused := true } }))

/-- A taken write whose value names no command completes at once with BAD_ARG, its low byte in the command field. The
commands that need READY complete at once with NOT_READY in another state they may be taken in; FORMATTING with no
command in progress gives the same for FORMAT and REMOUNT. -/
def Obligations.CompletesAtOnce : Prop :=
  (∀ (s : State) (v : Half), s.commandFree → v ∉ commandCodes →
    exec (.undefinedCommand v) s = .next (s.doneAtOnce (v.extractLsb' 0 8) .badArg)) ∧
  (∀ s : State, s.commandFree →
    (s.dev.state ≠ .ready →
      exec .commit s = .next (s.doneAtOnce 0x31 .notReady) ∧ exec .spareBlock s = .next (s.doneAtOnce 0x41 .notReady) ∧
      exec .cancelSpare s = .next (s.doneAtOnce 0x42 .notReady) ∧
      exec .scrubRange s = .next (s.doneAtOnce 0x51 .notReady) ∧
      exec .clearFaults s = .next (s.doneAtOnce 0x61 .notReady)) ∧
    (s.dev.state = .formatting →
      exec .format s = .next (s.doneAtOnce 0x21 .notReady) ∧ exec .remount s = .next (s.doneAtOnce 0x22 .notReady)))

/-- FORMAT by its checks in order: BAD_ARG above 32 spares; ACTIVE with a channel not CLOSED, a migration in flight or
a commit in progress; else the device enters FORMATTING with S from the argument, every spare FREE, an empty remap
table, the commit unit's knowledge, the fault table and the migration queue cleared, the scrub cursor at block 0 and
the filler at stage ZERO, and FORMAT is the command in progress. -/
def Obligations.FormatByChecks : Prop :=
  ∀ s : State, s.commandFree → (s.dev.state = .unformatted ∨ s.dev.state = .foreign ∨ s.dev.state = .ready) →
    (32 < s.cmd.arg0.toNat → exec .format s = .next (s.doneAtOnce 0x21 .badArg)) ∧
    (s.cmd.arg0.toNat ≤ 32 →
      ((∃ n, (s.chan n).state ≠ .closed) ∨ s.mig.flight.isSome = true ∨ s.dir.state ≠ .idle) →
      exec .format s = .next (s.doneAtOnce 0x21 .active)) ∧
    (s.cmd.arg0.toNat ≤ 32 → (∀ n, (s.chan n).state = .closed) → s.mig.flight = none → s.dir.state = .idle →
      exec .format s = .next { s.latched with
        cmd := { s.cmd with field := 0x21, result := .ok, refused := false, running := some (.format s.cmd.arg0) }
        dev := { s.dev with state := .formatting, dirReadonly := false }
        map := { loaded := true, spares := List.replicate s.cmd.arg0.toNat .free, remap := [] }
        dir := { s.dir with
          gen := 0, copyA := ⟨false, 0⟩, copyB := ⟨false, 0⟩, pendingFlag := false, target := none,
          snapshot := none, word := 0, closing := false }
        faults := FaultTable.empty
        mig := { s.mig with queue := [] }
        scrub := { s.scrub with ticks := 0, block := 0, slice := 0, word := 0 }
        filler := some Filler.start })

/-- REMOUNT: ACTIVE by the check of FORMAT; else DIR_READONLY is cleared and a mount starts from word 0 of copy A,
with REMOUNT as the command in progress; channels, settings, DIAG, events and the array stay. -/
def Obligations.RemountByChecks : Prop :=
  ∀ s : State, s.commandFree → (s.dev.state = .unformatted ∨ s.dev.state = .foreign ∨ s.dev.state = .ready) →
    (((∃ n, (s.chan n).state ≠ .closed) ∨ s.mig.flight.isSome = true ∨ s.dir.state ≠ .idle) →
      exec .remount s = .next (s.doneAtOnce 0x22 .active)) ∧
    ((∀ n, (s.chan n).state = .closed) → s.mig.flight = none → s.dir.state = .idle →
      exec .remount s = .next { s.latched with
        cmd := { s.cmd with field := 0x22, result := .ok, refused := false, running := some .remount }
        dev := { s.dev with state := .mounting, dirReadonly := false }
        map := BlockMap.empty, dir := CommitUnit.reset, faults := FaultTable.empty
        mig := { s.mig with queue := [], flight := none }, mount := MountReader.start, filler := none
        scrub := { s.scrub with ticks := 0 } })

/-- COMMIT in READY: completes at once with DIR_READONLY when the unit is IDLE and DIR_READONLY is set; sets the
pending flag and waits when a commit is in progress; at the generation limit sets DIR_READONLY, posts COMMIT_FAILED
and completes with DIR_READONLY after it. COMMIT with the unit IDLE starts a commit: attempt 1, word 0, the next
generation, copy A as target when it is not valid, else B when that is not, else the copy with the lower generation, B
when equal; the target is known as invalid; the snapshot records P and the map, the entry and spare of a migration in
COMMIT_WAIT included and any other ALLOCATED spare as FREE. -/
def Obligations.CommitCommand : Prop :=
  (∀ s : State, s.commandFree → s.dev.state = .ready →
    (s.dir.state = .idle → s.dev.dirReadonly = true → exec .commit s = .next (s.doneAtOnce 0x31 .dirReadonly)) ∧
    (s.dir.state ≠ .idle → exec .commit s = .next { s.latched with
      cmd := { s.cmd with field := 0x31, result := .ok, refused := false, running := some (.commit true) }
      dir := { s.dir with pendingFlag := true } }) ∧
    (s.dir.state = .idle → s.dev.dirReadonly = false → s.dir.gen = 0xFFFFFFFF → s.mig.flight = none →
      s.skipped s.scrub.block = false → s.scrub.range = none → ∃ t, exec .commit s = .next t ∧
        t.dev.dirReadonly = true ∧ t.dir.state = .idle ∧ t.cmd.running = none ∧ t.cmd.result = .dirReadonly ∧
        t.irq.cmdDone = true ∧ t.array = s.array ∧
        t.events = (s.events.offer ⟨.commitFailed, .commit, none, none, none, 0⟩).offer
          (commandDoneRecord 0x31 .dirReadonly))) ∧
  (∀ s : State, s.commandFree → s.dev.state = .ready → s.dir.state = .idle → s.dev.dirReadonly = false →
    s.dir.gen ≠ 0xFFFFFFFF → s.scrub.backlog = 0 → s.scrub.range = none →
    ∃ t x r, exec .commit s = .next t ∧ t.dir.state = .writing ∧ t.dir.attempt = 1 ∧ t.dir.word = 0 ∧
      t.dir.gen = s.dir.gen ∧ t.dir.target = some x ∧ (t.dir.known x).valid = false ∧ t.dir.snapshot = some r ∧
      x = (if s.dir.copyA.valid = false then .a else if s.dir.copyB.valid = false then .b
        else if s.dir.copyA.gen < s.dir.copyB.gen then .a else .b) ∧
      r.gen = s.dir.gen + 1 ∧ r.blocks = s.physBlocks ∧
      (s.waitingMigration = none → r.entries = s.map.remap ∧ r.included = none ∧
        r.spares = s.map.spares.map fun st => if st = .allocated then .free else st) ∧
      (∀ m, s.mig.flight = some m → m.phase = .commitWait → r.included = some m.ident ∧
        ((∀ e ∈ s.map.remap, e.logical ≠ m.lam) → r.entries = s.map.remap ++ [⟨m.lam, m.spare⟩])) ∧
      t.cmd.running = some (.commit false) ∧ t.array = s.array ∧ t.map = s.map ∧ t.events = s.events)

/-- SPARE_BLOCK in READY by its checks: BAD_ARG at or above L, NO_SPARE with S 0; DUPLICATE for a block in flight or
queued, QUEUE_FULL with 8 entries, each without another effect; else the request joins the queue with origin HOST and
the result is OK. While a migration is in flight, or with DIR_READONLY set, it waits there. With the engine IDLE and
DIR_READONLY clear a start follows in the same event: the head of the queue with the request behind it starts COPY
onto the FREE spare of lowest index, its source the home of its block, whose record, where it has one, becomes
MIGRATING; with no spare FREE a request that finds the queue empty ends NO_SPARE, and MIGRATION_ABANDONED and
COMMAND_DONE join in either order. The count of free orders is the model's (log 8). -/
def Obligations.SpareBlockByChecks : Prop :=
  ∀ s : State, s.commandFree → s.dev.state = .ready → s.scrub.backlog = 0 → s.scrub.range = none →
    (s.logicalBlocks ≤ s.cmd.arg0.toNat → exec .spareBlock s = .next (s.doneAtOnce 0x41 .badArg)) ∧
    (s.cmd.arg0.toNat < s.logicalBlocks → s.spareCount = 0 →
      exec .spareBlock s = .next (s.doneAtOnce 0x41 .noSpare)) ∧
    (∀ b : Block, b.toNat = s.cmd.arg0.toNat → b.toNat < s.logicalBlocks → s.spareCount ≠ 0 →
      let joined := s.mig.queue ++ [⟨b, .host⟩]
      let done := s.events.offer (commandDoneRecord 0x41 .ok)
      ((∃ m, s.mig.flight = some m ∧ m.lam = b) ∨ (∃ r ∈ s.mig.queue, r.block = b) →
        exec .spareBlock s = .next { s.doneAtOnce 0x41 .duplicate with choices := s.choices + 1 }) ∧
      ((∀ m, s.mig.flight = some m → m.lam ≠ b) → (∀ r ∈ s.mig.queue, r.block ≠ b) → 8 ≤ s.mig.queue.length →
        exec .spareBlock s = .next { s.doneAtOnce 0x41 .queueFull with choices := s.choices + 1 }) ∧
      ((∀ m, s.mig.flight = some m → m.lam ≠ b) → (∀ r ∈ s.mig.queue, r.block ≠ b) → s.mig.queue.length < 8 →
        ∃ t, exec .spareBlock s = .next t ∧ t.cmd.result = .ok ∧ t.cmd.running = none ∧ t.irq.cmdDone = true ∧
          t.array = s.array ∧
          (s.mig.flight.isSome = true ∨ s.dev.dirReadonly = true →
            t.mig = { s.mig with queue := joined } ∧ t.map = s.map ∧ t.events = done) ∧
          (∀ r rest k, s.mig.flight = none → s.dev.dirReadonly = false → joined = r :: rest →
            s.map.spares[k]? = some .free → (∀ j, j < k → s.map.spares[j]? ≠ some .free) →
            t.mig = { queue := rest, nextId := s.mig.nextId + 1
                      flight := some { phase := .copy, lam := r.block, source := s.home r.block, spare := k, cursor := 0
                                       poison := 0, attempt := 1, ident := s.mig.nextId } } ∧
            t.map = { s.map with spares := s.map.spares.set k .allocated } ∧ t.events = done ∧
            (∀ q, s.faults.recordOf (s.home r.block) = some q →
              ∃ p, t.faults.recordOf (s.home r.block) = some p ∧ p.state = .migrating)) ∧
          (s.mig.flight = none → s.dev.dirReadonly = false → s.mig.queue = [] →
            (∀ j : Nat, s.map.spares[j]? ≠ some .free) →
            let gone : EventRecord :=
              { kind := .migrationAbandoned, source := .migrate, phys := some (s.home b), logical := some b
                offset := none, detail := 1 }
            t.mig = s.mig ∧ t.map = s.map ∧
              (t.events = done.offer gone ∨
                t.events = (s.events.offer gone).offer (commandDoneRecord 0x41 .ok)))))

/-- CANCEL_SPARE in READY by its checks and the engine's answer: BAD_ARG at or above L, NOT_FOUND for a block neither
queued nor in flight, TOO_LATE in COMMIT_WAIT; a queued request leaves the queue with OK and no other record.
CANCEL_SPARE of a migration in COPY or VERIFY: OK, the engine IDLE, the ALLOCATED spare FREE, the remap table
untouched, and MIGRATION_ABANDONED with reason CANCELLED and COMMAND_DONE posted in either order. The free order and
its count are the model's (log 8). -/
def Obligations.CancelSpare : Prop :=
  (∀ s : State, s.commandFree → s.dev.state = .ready → s.scrub.backlog = 0 → s.scrub.range = none →
    (s.logicalBlocks ≤ s.cmd.arg0.toNat → exec .cancelSpare s = .next (s.doneAtOnce 0x42 .badArg)) ∧
    (∀ b : Block, b.toNat = s.cmd.arg0.toNat → b.toNat < s.logicalBlocks →
      ((∀ r ∈ s.mig.queue, r.block ≠ b) → (∀ m, s.mig.flight = some m → m.lam ≠ b) →
        exec .cancelSpare s = .next { s.doneAtOnce 0x42 .notFound with choices := s.choices + 1 }) ∧
      (∀ m, (∀ r ∈ s.mig.queue, r.block ≠ b) → s.mig.flight = some m → m.lam = b → m.phase = .commitWait →
        exec .cancelSpare s = .next { s.doneAtOnce 0x42 .tooLate with choices := s.choices + 1 }) ∧
      ((∃ r ∈ s.mig.queue, r.block = b) →
        ∃ t, exec .cancelSpare s = .next t ∧ t.mig = { s.mig with queue := s.mig.queue.filter fun r => r.block != b } ∧
          t.cmd.result = .ok ∧ t.events = (s.doneAtOnce 0x42 .ok).events ∧ t.map = s.map ∧ t.array = s.array))) ∧
  (∀ (s : State) (b : Block) (m : Migration), s.commandFree → s.dev.state = .ready → s.scrub.backlog = 0 →
    s.scrub.range = none → b.toNat = s.cmd.arg0.toNat → b.toNat < s.logicalBlocks → s.mig.queue = [] →
    s.mig.flight = some m → m.lam = b → m.phase ≠ .commitWait → s.map.spares[m.spare]? = some .allocated →
    let gone : EventRecord := { kind := .migrationAbandoned, source := .migrate, phys := some m.source,
                                logical := some b, offset := none, detail := 4 }
    let done := commandDoneRecord 0x42 .ok
    ∃ t, exec .cancelSpare s = .next t ∧ t.mig.flight = none ∧ t.mig.queue = [] ∧
      t.map.spares = s.map.spares.set m.spare .free ∧ t.map.remap = s.map.remap ∧ t.cmd.result = .ok ∧
      t.array = s.array ∧
      (t.events = (s.events.offer gone).offer done ∨ t.events = (s.events.offer done).offer gone))

/-- SCRUB_RANGE in READY: BAD_ARG unless first is at most last and last is below P; else the range run starts at first
× 256 and SCRUB_RANGE is the command in progress, the normal cursor kept. A completion of the command in progress:
busy clears, the command field stays, the result is taken, COMMAND_DONE carries the command and the result, and
CMD_DONE is set. The row stands for such a completion where the work of the command is over (log 2): here a range run
that has ended. -/
def Obligations.ScrubRange : Prop :=
  (∀ s : State, s.commandFree → s.dev.state = .ready →
    (¬ (s.cmd.arg0.toNat ≤ s.cmd.arg1.toNat ∧ s.cmd.arg1.toNat < s.physBlocks) →
      exec .scrubRange s = .next (s.doneAtOnce 0x51 .badArg)) ∧
    (∀ first last : Block, first.toNat = s.cmd.arg0.toNat → last.toNat = s.cmd.arg1.toNat → first ≤ last →
      last.toNat < s.physBlocks → s.skipped first = false → s.scrub.holds = false →
      exec .scrubRange s = .next { s.latched with
        cmd := { s.cmd with
          field := 0x51, result := .ok, refused := false, running := some (.scrubRange s.cmd.arg0 s.cmd.arg1) }
        scrub := { s.scrub with range := some { first := first, last := last, cursor := wordAddr first 0 } } })) ∧
  (∀ (s : State) (a b : Half), s.cmd.running = some (.scrubRange a b) → s.scrub.range = none → s.dev.state ≠ .fenced →
    exec .commandCompletion s = .next { s with
      cmd := { s.cmd with result := .ok, running := none }
      irq := { s.irq with cmdDone := true }
      events := s.events.offer (commandDoneRecord s.cmd.field .ok) })

/-- CLEAR_FAULTS taken in READY removes the OBSERVED, RETIRED and UNSPAREABLE records and clears the untracked counter
and condition; the QUEUED and MIGRATING records stay in their slots, settings and the migration queue stay, and the
command completes with OK in the same event. Taken in another state it completes with NOT_READY and the table stays.
-/
def Obligations.ClearFaultsKeepsRequests : Prop :=
  ∀ s : State, s.commandFree →
    (s.dev.state = .ready → ∃ t, exec .clearFaults s = .next t ∧
      (∀ (i : Nat) (r : FaultRecord), t.faults.slots.toList[i]? = some (some r) ↔
        s.faults.slots.toList[i]? = some (some r) ∧ (r.state = .queued ∨ r.state = .migrating)) ∧
      t.faults.untracked = 0 ∧ t.faults.full = false ∧
      t = { s.doneAtOnce 0x61 .ok with faults := t.faults }) ∧
    (s.dev.state ≠ .ready → exec .clearFaults s = .next (s.doneAtOnce 0x61 .notReady))

/-- SOFT_RESET with no FORMAT or REMOUNT in progress: channels, port pointer and aging, scrub engine, fault table,
SPARE_CTRL, DIAG, events, enables and the table port at their values, a migration in COPY or VERIFY cut off with its
spare FREE, one in COMMIT_WAIT kept; the map's table, the commit unit, the device, the array, a grant in progress and
the arguments kept; COMMAND_DONE of SOFT_RESET the only record. SOFT_RESET that cuts off FORMAT or REMOUNT: the device
enters MOUNTING and a fresh mount starts from word 0 of copy A with no command in progress; COMMAND_DONE of SOFT_RESET
is the only record. -/
def Obligations.SoftReset : Prop :=
  (∀ s : State, s.busFree → s.dev.state ≠ .fenced → (s.dev.state = .mounting → s.cmd.running.isSome = true) →
    cutsOffMount s.cmd.running = false →
    ∃ t, exec .softReset s = .next t ∧ (∀ n, t.chan n = Channel.reset) ∧
      t.port = { s.port with rr := 0, aging := 0 } ∧ t.scrub = Scrub.reset ∧ t.faults = FaultTable.empty ∧
      t.spareCtrl = SpareCtrl.reset ∧ t.diag = Diag.reset ∧ t.table = TablePort.reset ∧
      t.irq = { enable := 0, cmdDone := true } ∧ t.events = ⟨[commandDoneRecord 0x7E .ok], 0⟩ ∧
      t.cmd = { s.cmd with field := 0x7E, result := .ok, refused := false, running := none } ∧
      t.mig.queue = [] ∧ t.map.remap = s.map.remap ∧ t.dir = s.dir ∧ t.dev = s.dev ∧ t.array = s.array ∧
      t.filler = none ∧
      (∀ m, s.mig.flight = some m → m.phase = .commitWait → t.mig.flight = some m ∧ t.map = s.map) ∧
      (∀ m, s.mig.flight = some m → m.phase ≠ .commitWait → s.map.spares[m.spare]? = some .allocated →
        t.mig.flight = none ∧ t.map.spares = s.map.spares.set m.spare .free) ∧
      (s.mig.flight = none → t.mig.flight = none ∧ t.map = s.map)) ∧
  (∀ s : State, s.busFree → s.dev.state = .formatting ∨ s.dev.state = .mounting →
    cutsOffMount s.cmd.running = true →
    ∃ t, exec .softReset s = .next t ∧ t.dev = { s.dev with state := .mounting } ∧ t.mount = MountReader.start ∧
      t.map = BlockMap.empty ∧ t.dir = CommitUnit.reset ∧ t.filler = none ∧ t.cmd.running = none ∧
      t.events = ⟨[commandDoneRecord 0x7E .ok], 0⟩ ∧ t.array = s.array)

/-! ### Registers -/

/-- The settings registers load their fields and nothing else: IRQ_ENABLE seven enables, SCRUB_PERIOD (the tick count
returns to 0), SPARE_CTRL, DIAG, COMMAND_ARG0 and COMMAND_ARG1, IRQ_PENDING clearing CMD_DONE by bit 5, COMMAND_STATUS
clearing REFUSED by bit 14; a read-only register takes nothing. Scrub registers: SCRUB_CTRL loads its three fields,
and clearing the enable returns the tick count to 0; SCRUB_STATUS loads URGENT_LEVEL, 0 and 1 taken as 2, and the
urgent flag follows the backlog against the new level. A STATUS write loads the pointer view from bit 0 and clears
WRITE_IGNORED; reads of PTR_LO and PTR_HI then show the pointer or the fault address. Outside FENCED a PTR_HI write
loads the pointer-high stage in any channel state; WIN_FIRST and WIN_LAST are loaded in CLOSED and take nothing in
another channel state. -/
def Obligations.RegisterWritesLoad : Prop :=
  (∀ (s : State) (v : Half), s.busFree →
    (exec (.irqEnableWrite v) s = .next { s.latched with irq := { s.irq with enable := v.extractLsb' 0 7 } }) ∧
    (exec (.irqPendingWrite v) s =
      .next { s.latched with irq := { s.irq with cmdDone := s.irq.cmdDone && !v.getLsbD 5 } }) ∧
    (exec (.commandStatusWrite v) s =
      .next { s.latched with cmd := { s.cmd with refused := s.cmd.refused && !v.getLsbD 14 } }) ∧
    (exec (.scrubPeriodWrite v) s = .next { s.latched with scrub := { s.scrub with period := v, ticks := 0 } }) ∧
    (exec (.registerWrite 0x36 v) s = .next { s.latched with spareCtrl :=
      { threshold := v.extractLsb' 0 8, autoUncorrectable := v.getLsbD 8, reportCorrected := v.getLsbD 9,
        commitDoneEvent := v.getLsbD 10 } }) ∧
    (exec (.registerWrite 0x3F v) s = .next { s.latched with diag :=
      { rawEnable := v.getLsbD 15, side := v.extractLsb' 0 8 } }) ∧
    (exec (.registerWrite 0x03 v) s = .next { s.latched with cmd := { s.cmd with arg0 := v } }) ∧
    (exec (.registerWrite 0x04 v) s = .next { s.latched with cmd := { s.cmd with arg1 := v } }) ∧
    (∀ a ∈ ([0x00, 0x01, 0x08, 0x09, 0x0A, 0x0B, 0x0D, 0x0E, 0x0F, 0x33, 0x34, 0x35, 0x37, 0x38, 0x3A, 0x3B, 0x3C, 0x3D,
             0x3E] : List (BitVec 6)),
      exec (.registerWrite a v) s = .next s.latched)) ∧
  (∀ (s : State) (v : Half), s.busFree → s.scrub.range = none → s.skipped s.scrub.block = false →
    (exec (.scrubCtrlWrite v) s = .next { s.latched with scrub := { s.scrub with
      enable := v.getLsbD 0, poisonOnScrub := v.getLsbD 1, passEvent := v.getLsbD 2,
      ticks := if v.getLsbD 0 then s.scrub.ticks else 0 } }) ∧
    (∀ l : BitVec 4, l = (if v.extractLsb' 8 4 = 0 ∨ v.extractLsb' 8 4 = 1 then 2 else v.extractLsb' 8 4) →
      exec (.scrubStatusWrite v) s = .next { s.latched with scrub := { s.scrub with
        urgentLevel := l
        urgent := decide (l ≤ s.scrub.backlog) || (s.scrub.urgent && decide (l >>> 1 < s.scrub.backlog)) } })) ∧
  (∀ (s : State) (n : Fin 4) (v : Half), s.busFree →
    ∃ t, exec (.statusWrite n v) s = .next t ∧
      t = s.latched.setChan n { s.chan n with
        view := if v.getLsbD 0 then .faultAddress else .pointer, writeIgnored := false } ∧
      (t.chan n).register 2 ++ (t.chan n).register 3 =
        (if v.getLsbD 0 then (s.chan n).faultAddr.extractLsb' 0 16 ++ (0#12 ++ (s.chan n).faultAddr.extractLsb' 16 4)
        else (s.chan n).pointer.extractLsb' 0 16 ++ (0#12 ++ (s.chan n).pointer.extractLsb' 16 4))) ∧
  (∀ (s : State) (n : Fin 4) (v : Half), s.busOpen →
    let write := fun (k : Nat) => exec (.registerWrite (BitVec.ofNat 6 (0x10 + 8 * n.val + k)) v) s
    write 3 = .next (s.latched.setChan n { s.chan n with ptrHigh := v.extractLsb' 0 4 }) ∧
    ((s.chan n).state = .closed →
      write 4 = .next (s.latched.setChan n { s.chan n with winFirst := v.extractLsb' 0 12 }) ∧
      write 5 = .next (s.latched.setChan n { s.chan n with winLast := v.extractLsb' 0 12 })) ∧
    ((s.chan n).state ≠ .closed → write 4 = .next s.latched ∧ write 5 = .next s.latched))

/-- A pop, with any value: an empty queue stays; else the head leaves, and when records were lost EVENTS_LOST with the
lost count joins the tail and the count returns to 0. A read of EVENT_POP gives 0 and does not pop. -/
def Obligations.PopTakesTheHead : Prop :=
  ∀ (s : State) (v : Half), s.busFree →
    (s.events.queue = [] → exec (.eventPop v) s = .next s.latched) ∧
    (∀ r rest, s.events.queue = r :: rest → s.events.lost = 0 →
      exec (.eventPop v) s = .next { s.latched with events := ⟨rest, 0⟩ }) ∧
    (∀ r rest, s.events.queue = r :: rest → s.events.lost ≠ 0 →
      exec (.eventPop v) s = .next { s.latched with events :=
        ⟨rest ++ [{ kind := .eventsLost, source := .device, phys := none, logical := none, offset := none,
                    detail := s.events.lost.setWidth 16 }], 0⟩ }) ∧
    exec (.registerRead 0x0C) s = .next { s with host := { s.host with latch := none, readData := 0 } }

/-- A paired register read twice in a row gives part 1 with bit 15 clear, then part 2 with bit 15 set, both of the
state at the first read; the latch is then empty. Part 2 comes from the snapshot of the first read whatever the rest
of the state has become: after the timer's expiry, a decision, the completion of any grant, a start of a commit or a
migration, or nPFAIL, the second read gives what it would have given at once. Another cycle between them empties the
latch, and part 1 comes again. The fields: P, S and L of GEOMETRY; state, λ and cursor of MIGRATION_STATUS, 0 while
IDLE; the FREE, IN_USE and CONDEMNED spares of SPARE_SUMMARY. -/
def Obligations.PairedReadInTwoParts : Prop :=
  ∀ (s : State) (r : PairedReg), s.busFree → s.host.latch = none → s.spareCount ≤ 32 →
    s.logicalBlocks < 4096 → s.shownCursor ≤ 256 →
    ∃ t u w, exec (.pairedRead r) s = .next t ∧ exec (.pairedRead r) t = .next u ∧
      exec (.registerRead 0x00) t = .next w ∧ exec (.pairedRead r) w = .next t ∧
      t.host.readData.getLsbD 15 = false ∧ u.host.readData.getLsbD 15 = true ∧ u.host.latch = none ∧
      (∀ x : State, x.host = t.host → exec (.pairedRead r) x = .next { x with host := u.host }) ∧
      (s.port.stopped = false → ∀ c ∈ [Instr.scrubTimerExpiry, .grantDecision, .fetchComplete, .wordWriteDone,
          .rawWriteDone, .mergeDone, .copyDone, .verifyReadDone, .scrubWordDone, .mountReadDone, .commitWriteDone,
          .commitReadbackDone, .closingWriteDone, .fillDone, .formatCopyGrantDone, .commitStart, .migrationStart,
          .migrationComplete, .npfailAssert],
        ∃ x, exec c t = .next x ∧ exec (.pairedRead r) x = .next { x with host := u.host }) ∧
      (r = .geometry → t.host.readData.extractLsb' 0 2 = s.pCode ∧
        (t.host.readData.extractLsb' 8 6).toNat = s.spareCount ∧
        (u.host.readData.extractLsb' 0 12).toNat = s.logicalBlocks) ∧
      (r = .migrationStatus →
        (s.mig.flight = none → t.host.readData = 0 ∧ u.host.readData.extractLsb' 0 9 = 0) ∧
        (∀ m, s.mig.flight = some m → t.host.readData.extractLsb' 0 12 = m.lam ∧
          (∀ k, [none, some MigPhase.copy, some .verify, some .commitWait][k]? = some (some m.phase) →
            t.host.readData.extractLsb' 12 2 = BitVec.ofNat 2 k) ∧
          (u.host.readData.extractLsb' 0 9).toNat = m.cursor)) ∧
      (r = .spareSummary → (t.host.readData.extractLsb' 0 6).toNat = s.map.spares.count .free ∧
        (t.host.readData.extractLsb' 8 6).toNat = s.map.spares.count .inUse ∧
        (u.host.readData.extractLsb' 0 6).toNat = s.map.spares.count .condemned) ∧
      t = { s with host := t.host } ∧ u = { s with host := u.host } ∧ w.host.readData = 0x2418

/-- A TABLE_SELECT write loads the selection and copies the selected record as it stands; an index beyond the table,
or an empty slot, gives the empty mark. The four record layouts: FAULT with state, block, logical block, counts, last
source and offset; REMAP with logical block, spare index and physical block; SPARE with state, physical block, the
logical block of an IN_USE spare, and index; MIGRATION_QUEUE with block and origin. -/
def Obligations.TableSelectCopies : Prop :=
  ∀ (s : State) (v : Half), s.busFree →
    let i := (v.extractLsb' 8 5).toNat
    ∃ t, exec (.tableSelectWrite v) s = .next t ∧ t = { s.latched with table := t.table } ∧
      t.table.table = v.extractLsb' 0 2 ∧ t.table.index = v.extractLsb' 8 5 ∧
      (v.extractLsb' 0 2 = 0 →
        (s.faults.slots.toList[i]? = some none → t.table.copy = ⟨0, 0, 0, 0⟩) ∧
        (∀ (r : FaultRecord) (j k : Nat), s.faults.slots.toList[i]? = some (some r) →
          [FaultState.observed, .queued, .migrating, .retired, .unspareable][j]? = some r.state →
          [Source.hostCh0, .hostCh1, .hostCh2, .hostCh3, .scrub, .migrate, .commit, .mount, .command, .device][k]? =
            some r.lastSource →
          t.table.copy =
            { w0 := 1#1 ++ BitVec.ofNat 3 j ++ r.phys
              w1 := match r.logical with
                | some b => 1#1 ++ 0#3 ++ b
                | none => 0
              w2 := r.corrected ++ 0#4 ++ r.uncorrectable
              w3 := BitVec.ofNat 4 k ++ 0#4 ++ r.lastOffset })) ∧
      (v.extractLsb' 0 2 = 1 →
        (s.map.remap.length ≤ i → t.table.copy = ⟨0, 0, 0, 0⟩) ∧
        (∀ e, s.map.remap[i]? = some e →
          t.table.copy = ⟨1#1 ++ 0#3 ++ e.logical, BitVec.ofNat 16 e.spare, 0#4 ++ s.spareBlock e.spare, 0⟩)) ∧
      (v.extractLsb' 0 2 = 2 →
        (s.spareCount ≤ i → t.table.copy = ⟨0, 0, 0, 0⟩) ∧
        (∀ st j, s.map.spares[i]? = some st →
          [SpareState.free, .inUse, .condemned, .allocated][j]? = some st →
          t.table.copy.w0 = 1#1 ++ 0#1 ++ BitVec.ofNat 2 j ++ s.spareBlock i ∧ t.table.copy.w2 = BitVec.ofNat 16 i ∧
          t.table.copy.w3 = 0 ∧ (st ≠ .inUse → t.table.copy.w1 = 0) ∧
          (∀ e ∈ s.map.remap, (s.map.remap.map (·.spare)).Nodup → e.spare = i → st = .inUse →
            t.table.copy.w1 = 1#1 ++ 0#3 ++ e.logical))) ∧
      (v.extractLsb' 0 2 = 3 →
        (s.mig.queue.length ≤ i → t.table.copy = ⟨0, 0, 0, 0⟩) ∧
        (∀ r, s.mig.queue[i]? = some r →
          t.table.copy = ⟨1#1 ++ 0#3 ++ r.block, if r.origin = .host then 1 else 0, 0, 0⟩))

/-- Plain register reads return the value as it stands and change nothing but the latch: the part code; DEVICE_STATE
with state, outcome, DIR_READONLY and RAW_ENABLE; COMMAND and its arguments; COMMAND_STATUS with busy, REFUSED, result
(OK while busy) and command; IRQ_PENDING and the enables; the head event record field by field, or the empty mark;
EVENT_COUNT with the lost count; GENERATION_LO; the scrub registers; SPARE_CTRL; UNTRACKED; the table selection and
copy; DIAG; a channel's CTRL, STATUS and window. -/
def Obligations.RegisterReadsShow : Prop :=
  ∀ s : State, s.busFree →
    let shows := fun (a : BitVec 6) (x : Half) =>
      exec (.registerRead a) s = .next { s with host := { s.host with latch := none, readData := x } }
    let busy := BitVec.ofBool s.cmd.running.isSome
    shows 0x00 0x2418 ∧
    (∀ j k, [DevState.mounting, .unformatted, .foreign, .formatting, .ready, .fenced][j]? = some s.dev.state →
      [MountOutcome.unformatted, .mounted, .mountedSingle, .foreign][k]? = some s.dev.outcome →
      shows 0x01 (0#6 ++ BitVec.ofBool s.diag.rawEnable ++ BitVec.ofBool s.dev.dirReadonly ++ 0#2 ++ BitVec.ofNat 2 k ++
        0#1 ++ BitVec.ofNat 3 j)) ∧
    shows 0x02 (0#8 ++ s.cmd.field) ∧ shows 0x03 s.cmd.arg0 ∧ shows 0x04 s.cmd.arg1 ∧
    (∀ k, [Result.ok, .okDegraded, .badArg, .notReady, .active, .noSpare, .queueFull, .duplicate, .tooLate, .notFound,
           .dirReadonly, .dirFail, .aborted][k]? = some s.cmd.result →
      shows 0x05 (busy ++ BitVec.ofBool s.cmd.refused ++ 0#2 ++
        (if s.cmd.running.isSome then 0 else BitVec.ofNat 4 k) ++ s.cmd.field)) ∧
    shows 0x06 (0#9 ++ s.irqPending) ∧ shows 0x07 (0#9 ++ s.irq.enable) ∧
    (s.events.queue = [] → shows 0x08 0 ∧ shows 0x09 0 ∧ shows 0x0A 0 ∧ shows 0x0B 0) ∧
    (∀ r rest j k, s.events.queue = r :: rest →
      [EventKind.corrected, .uncorrectable, .poisonRead, .spareCondemned, .migrationRetry, .migrationAbandoned,
       .migrationDone, .commitDone, .commitFailed, .mountDone, .scrubPass, .scrubLag, .faultTableFull, .commandDone,
       .eventsLost][j]? = some r.kind →
      [Source.hostCh0, .hostCh1, .hostCh2, .hostCh3, .scrub, .migrate, .commit, .mount, .command, .device][k]? =
        some r.source →
      shows 0x08 (BitVec.ofNat 4 (j + 1) ++ BitVec.ofNat 4 k ++ r.offset.getD 0) ∧
      shows 0x09 (BitVec.ofBool r.phys.isSome ++ BitVec.ofBool r.offset.isSome ++ 0#2 ++ r.phys.getD 0) ∧
      shows 0x0A (BitVec.ofBool r.logical.isSome ++ 0#3 ++ r.logical.getD 0) ∧ shows 0x0B r.detail) ∧
    shows 0x0D (s.events.lost ++ BitVec.ofNat 8 s.events.queue.length) ∧ shows 0x0F (s.dir.gen.extractLsb' 0 16) ∧
    shows 0x30 (0#13 ++ BitVec.ofBool s.scrub.passEvent ++ BitVec.ofBool s.scrub.poisonOnScrub ++
      BitVec.ofBool s.scrub.enable) ∧
    shows 0x31 s.scrub.period ∧
    shows 0x32 (0#3 ++ BitVec.ofBool s.scrub.range.isSome ++ s.scrub.urgentLevel ++ 0#3 ++
      BitVec.ofBool s.scrub.urgent ++ s.scrub.backlog) ∧
    shows 0x33 (s.scrub.block ++ s.scrub.slice) ∧ shows 0x34 s.scrub.passes ∧ shows 0x35 s.scrub.lagCount ∧
    shows 0x36 (0#5 ++ BitVec.ofBool s.spareCtrl.commitDoneEvent ++ BitVec.ofBool s.spareCtrl.reportCorrected ++
      BitVec.ofBool s.spareCtrl.autoUncorrectable ++ s.spareCtrl.threshold) ∧
    shows 0x39 (0#3 ++ s.table.index ++ 0#6 ++ s.table.table) ∧
    shows 0x3A s.table.copy.w0 ∧ shows 0x3B s.table.copy.w1 ∧ shows 0x3C s.table.copy.w2 ∧ shows 0x3D s.table.copy.w3 ∧
    shows 0x3E s.faults.untracked ∧ shows 0x3F (BitVec.ofBool s.diag.rawEnable ++ 0#7 ++ s.diag.side) ∧
    (∀ (n : Fin 4) (i j k l : Nat), let c := s.chan n
      [ChanMode.read, .write, .rawRead, .rawWrite][i]? = some c.mode →
      [ChanWidth.word, .halfLow, .halfHigh][j]? = some c.width →
      [ChanState.closed, .opened, .draining, .ended, .faulted][k]? = some c.state →
      [FaultKind.noFault, .uncorrectable, .poisoned, .mergeRefused, .waitExpired, .pointerOutside][l]? =
        some c.faultKind →
      shows (BitVec.ofNat 6 (0x10 + 8 * n.val)) (0#7 ++ BitVec.ofBool (decide (c.state ≠ .closed)) ++ 0#2 ++
        BitVec.ofBool (decide (c.policy = .wrap)) ++ BitVec.ofBool (decide (c.step = .down)) ++ BitVec.ofNat 2 j ++
        BitVec.ofNat 2 i) ∧
      (∀ m, [none, some RefuseReason.notClosed, some .rawDisabled, some .deviceState, some .window, some .pointer][m]? =
          some c.openRefused →
        shows (BitVec.ofNat 6 (0x11 + 8 * n.val)) (BitVec.ofNat 3 m ++ BitVec.ofBool c.openRefused.isSome ++
          BitVec.ofBool c.writeIgnored ++ BitVec.ofNat 3 l ++ BitVec.ofNat 3 c.writeQ.length ++
          BitVec.ofNat 2 c.readAhead.length ++ BitVec.ofNat 3 k)) ∧
      shows (BitVec.ofNat 6 (0x14 + 8 * n.val)) (0#4 ++ c.winFirst) ∧
      shows (BitVec.ofNat 6 (0x15 + 8 * n.val)) (0#4 ++ c.winLast))

/-! ### The memory port and its requesters -/

/-- The arbiter. A busy port keeps its grant: GRANT_DECISION is then a row not due, the model's choice (log 1). A free
port grants the earliest class present, and the grant carries the class: the mount reader's word in MOUNTING, the
format filler's request in FORMATTING; in READY a commit in progress, with its write, readback read or closing write;
then the scrub word while the urgent flag is set or a range run is in progress; then the HOST channel first from the
round-robin pointer, which moves past it, but for a migration request that has waited 16 times; then the migration
request; last the scrub word outside both. With a migration request present a HOST grant raises the aging count, a
MIGRATE grant clears it; with none present it is 0. With no request nothing changes. Nothing else of the state changes
but the marks of who holds the grant. The scrub word: the one at the range cursor in a range run, else, with the
enable set and a credit, the one at the cursor, unless its block is skipped. What a channel requests: in a read mode,
in OPEN with fewer than two words fetched and a fetch pointer, the fetch at that pointer, a WORD_READ at the resolved
address or a RAW_READ, but no WORD_READ of a word that any write queue holds; in a write mode the head of its queue, a
WORD_WRITE or MERGE at the resolved address with its mirror, or a RAW_WRITE, but no logical head behind an earlier
accepted logical entry of another channel for the same word; otherwise nothing. -/
def Obligations.ArbiterOrder : Prop :=
  ∀ s : State, s.port.stopped = false → s.dev.inReset = false → s.dev.state ≠ .fenced →
    let kept := if s.migRequests then s.port.aging else 0
    let port := fun (g : Grant) (k : GrantClass) (aging : Nat) =>
      { s.port with grant := some g, cls := some k, accesses := [], aging := aging }
    let noCommit := s.dev.state = .ready ∧ s.dir.state = .idle ∨ s.dev.state = .unformatted ∨ s.dev.state = .foreign
    let notUrgent := s.scrubOffer = none ∨ s.scrub.urgent = false ∧ s.scrub.range = none
    (s.port.grant.isSome = true → exec .grantDecision s = .next s) ∧
    (s.port.grant = none → s.dev.state = .mounting → s.mount.running = true → exec .grantDecision s = .next { s with
      port := port (.mountRead (wordAddr (BitVec.ofNat 12 (s.physBlocks - if s.mount.word.getLsbD 8 then 1 else 2))
        (s.mount.word.extractLsb' 0 8))) .exclusive kept
      mount := { s.mount with holds := true } }) ∧
    (∀ f, s.port.grant = none → s.dev.state = .formatting → s.filler = some f → exec .grantDecision s = .next { s with
      port := port (s.fillerGrant f) .exclusive kept, mount := { s.mount with holds := false } }) ∧
    (∀ x r, s.port.grant = none → s.dev.state = .ready → s.dir.target = some x → s.dir.snapshot = some r →
      (s.dir.state = .writing → exec .grantDecision s = .next { s with
        port := port (.dirWrite (wordAddr (s.copyBlock x) s.dir.word)
          (freshWord (if s.dir.word = 0 then 0 else r.wordAt s.dir.word.toNat))) .commit kept }) ∧
      (s.dir.state = .readback → s.dir.closing = false → exec .grantDecision s = .next { s with
        port := port (.dirRead (wordAddr (s.copyBlock x) s.dir.word)) .commit kept }) ∧
      (s.dir.state = .readback → s.dir.closing = true → exec .grantDecision s = .next { s with
        port := port (.dirClose (wordAddr (s.copyBlock x) 0) (freshWord 0x3B9E0A71)) .commit kept })) ∧
    (s.dev.state = .ready →
      (∀ r, s.scrub.range = some r →
        s.scrubOffer = if s.skipped (blockOf r.cursor) then none else some (r.cursor, true)) ∧
      (s.scrub.range = none → s.scrubOffer =
        if s.scrub.enable = true ∧ s.scrub.backlog ≠ 0 ∧ s.skipped s.scrub.block = false then
          some (s.scrub.block ++ s.scrub.slice ++ s.scrub.word, false)
        else none)) ∧
    (∀ a r, s.port.grant = none → s.dir.state = .idle → s.scrubOffer = some (a, r) →
      s.scrub.urgent = true ∨ s.scrub.range.isSome = true → exec .grantDecision s = .next { s with
        port := port (.scrub a s.scrub.poisonOnScrub r) .scrubUrgent kept, scrub := { s.scrub with holds := true } }) ∧
    (∀ (n : Fin 4) (k : Nat), s.port.grant = none → noCommit → notUrgent →
      (∀ j : Fin 4, j.val < k → s.chanRequests (s.port.rr + j) = false) → k < 4 →
      n = s.port.rr + Fin.ofNat 4 k → s.chanRequests n = true → (s.migRequests && s.port.aging == 16) = false →
      ∃ t g, exec .grantDecision s = .next t ∧ s.chanGrant n = some g ∧
        t.port = { s.port with
          grant := some g, cls := some .host, accesses := [], rr := n + 1
          aging := if s.migRequests then (if s.port.aging < 16 then s.port.aging + 1 else 16) else 0 } ∧
        t.chans = (s.setChan n { s.chan n with holds := true }).chans ∧
        t = { s with port := t.port, chans := t.chans }) ∧
    (∀ m, s.port.grant = none → noCommit → notUrgent → s.mig.flight = some m → m.phase ≠ .commitWait →
      (s.port.aging = 16 ∨ ∀ n, s.chanRequests n = false) →
      let o : Offset := BitVec.ofNat 8 m.cursor
      exec .grantDecision s = .next { s with
        port := port (if m.phase = .copy then .copy (wordAddr m.source o) (wordAddr (s.spareBlock m.spare) o) m.ident
          else .verify (wordAddr (s.spareBlock m.spare) o) m.ident) .migrate 0 }) ∧
    (s.port.grant = none → noCommit → s.migRequests = false → (∀ n, s.chanRequests n = false) →
      (∀ a r, s.scrubOffer = some (a, r) → s.scrub.urgent = false → s.scrub.range = none →
        exec .grantDecision s = .next { s with
          port := port (.scrub a s.scrub.poisonOnScrub r) .scrubIdle 0, scrub := { s.scrub with holds := true } }) ∧
      (s.scrubOffer = none → exec .grantDecision s = .next s)) ∧
    (∀ n : Fin 4,
      let c := s.chan n
      let logical := fun (e : WriteEntry) => ∀ v d, e.value ≠ .raw v d
      let queued := fun (a : Addr) => ∃ m, ∃ e ∈ (s.chan m).writeQ, logical e ∧ e.addr = a
      let earlier := fun (e : WriteEntry) => logical e ∧
        ∃ m, m ≠ n ∧ ∃ x ∈ (s.chan m).writeQ, logical x ∧ x.addr = e.addr ∧ x.pos < e.pos
      let fetches := fun (a : Addr) => c.state = .opened ∧ c.readAhead.length < 2 ∧ c.fetchPtr = some a ∧
        (c.mode = .read → ¬ queued a)
      (∀ a, c.mode = .read → fetches a →
        s.chanRequests n = true ∧ s.chanGrant n = some (.wordRead n a (s.primary a))) ∧
      (∀ a, c.mode = .rawRead → fetches a → s.chanRequests n = true ∧ s.chanGrant n = some (.rawRead n a)) ∧
      (c.mode = .read ∨ c.mode = .rawRead → (∀ a, ¬ fetches a) → s.chanRequests n = false) ∧
      (∀ e rest, c.mode = .write ∨ c.mode = .rawWrite → c.writeQ = e :: rest → ¬ earlier e →
        s.chanRequests n = true ∧
        (∀ v, e.value = .word v →
          s.chanGrant n = some (.wordWrite n (s.primary e.addr) (s.mirror e.addr) (freshWord v))) ∧
        (∀ v, e.value = .halfLow v →
          s.chanGrant n = some (.merge n e.addr (s.primary e.addr) (s.mirror e.addr) false v)) ∧
        (∀ v, e.value = .halfHigh v →
          s.chanGrant n = some (.merge n e.addr (s.primary e.addr) (s.mirror e.addr) true v)) ∧
        (∀ v d, e.value = .raw v d → s.chanGrant n = some (.rawWrite n e.addr (rawWord v d)))) ∧
      (c.mode = .write ∨ c.mode = .rawWrite → (∀ e rest, c.writeQ = e :: rest → earlier e) →
        s.chanRequests n = false))

/-- Address resolution of a logical word: its home, and for a write to the block in flight the source, with the same
word of the spare as mirror address when COPY has passed its offset or the engine is past COPY. -/
def Obligations.WritesAreMirroredBehindTheCopy : Prop :=
  ∀ (s : State) (a : Addr),
    (s.mig.flight = none → s.primary a = wordAddr (s.home (blockOf a)) (offsetOf a) ∧ s.mirror a = none) ∧
    (∀ m, s.mig.flight = some m → m.lam = blockOf a → s.primary a = wordAddr m.source (offsetOf a) ∧
      ((m.phase = .copy → m.cursor ≤ (offsetOf a).toNat → s.mirror a = none) ∧
       ((m.phase = .copy → (offsetOf a).toNat < m.cursor) →
          s.mirror a = some ⟨wordAddr (s.spareBlock m.spare) (offsetOf a), m.ident⟩))) ∧
    (∀ m, s.mig.flight = some m → m.lam ≠ blockOf a →
      s.primary a = wordAddr (s.home (blockOf a)) (offsetOf a) ∧ s.mirror a = none) ∧
    (∀ e ∈ s.map.remap, (s.map.remap.map (·.logical)).Nodup → e.logical = blockOf a →
      s.home (blockOf a) = s.spareBlock e.spare) ∧
    ((∀ e ∈ s.map.remap, e.logical ≠ blockOf a) → s.home (blockOf a) = blockOf a)

/-- A fetch that completes at an OPEN channel that still waits for it, with no fault mark waiting: the word, the
address and the physical block join the read-ahead queue and the fetch pointer steps. A poisoned word that becomes the
head puts the channel in FAULT and posts POISON_READ; a raw read carries the 32 bits and the side bits as read,
unmarked. A read held at DATA_LO ends with the word's low half. -/
def Obligations.FetchDelivers : Prop :=
  ∀ (s : State) (n : Fin 4) (l p : Addr) (d : Word), s.quietEnd → (s.chan n).wantsFetch = true →
    let c := s.chan n
    let entry : ReadEntry := { addr := l, data := d, side := none, mark := none, phys := some (blockOf p) }
    let read := s.granted [.read (s.maOf p)]
    (s.port.grant = some (.wordRead n l p) → s.cell p = freshWord d → s.host.held = none →
      (∀ x ∈ c.readAhead, x.mark = none) →
      exec .fetchComplete s = .next (read.setChan n { c with
        readAhead := c.readAhead ++ [entry], fetchPtr := c.stepped l, holds := false })) ∧
    (s.port.grant = some (.wordRead n l p) → s.cell p = freshWord d → c.readAhead = [] → ∀ k,
      s.host.held = some ⟨n, false, none, k⟩ → exec .fetchComplete s =
        .next (({ read with host := { s.host with held := none, readData := d.extractLsb' 0 16 } } : State).setChan n
          { c with readAhead := [entry], fetchPtr := c.stepped l, holds := false })) ∧
    (s.port.grant = some (.wordRead n l p) → s.cell p = poisonedWord → s.host.held = none → c.readAhead = [] →
      exec .fetchComplete s = .next (({ read with events := s.events.offer ⟨.poisonRead, hostSource n, some (blockOf p),
        some (blockOf c.pointer), some (offsetOf c.pointer), 0⟩ } : State).setChan n { c with
        readAhead := [{ entry with data := 0, mark := some .poisoned }], fetchPtr := c.stepped l, holds := false,
        state := .faulted, faultKind := .poisoned, faultAddr := c.pointer })) ∧
    (s.port.grant = some (.rawRead n p) → s.host.held = none → (∀ x ∈ c.readAhead, x.mark = none) →
      exec .fetchComplete s = .next (read.setChan n { c with
        readAhead := c.readAhead ++
          [⟨p, (s.cell p).data, some (BitVec.ofBool (s.cell p).tag ++ (s.cell p).check), none, none⟩],
        fetchPtr := c.stepped p, holds := false }))

/-- Write grants that complete at a channel that still holds their entry: the codeword lands at the primary address,
and at the mirror address when there is one, and clears the poison-map flag of its offset when the mirror's migration
attempt is still in flight; the head entry leaves, and the last one closes a DRAINING channel; all else stays. A MERGE
of a CLEAN word keeps the other half, and is mirrored likewise; a MERGE of a poisoned word writes nothing, removes the
entry, posts POISON_READ, and puts a channel in OPEN or END in FAULT with MERGE_REFUSED, while one in FAULT or
DRAINING keeps what it holds. -/
def Obligations.WritesLand : Prop :=
  ∀ (s : State) (n : Fin 4) (p : Addr) (c : Codeword), s.quietEnd → s.host.held = none → (s.chan n).holds = true →
    let ch := s.chan n
    let popped := { ch with
      writeQ := ch.writeQ.tail, holds := false
      state := if ch.state = .draining ∧ ch.writeQ.tail = [] then .closed else ch.state }
    let landed := fun (l : List ArrayAccess) (x : Codeword) =>
      ({ s.granted l with array := s.array.put (s.maOf p).toNat x } : State).setChan n popped
    let mirrored := fun (l : List ArrayAccess) (mi : Mirror) (x : Codeword) =>
      ({ s.granted (l ++ [.write (s.maOf p) x, .write (s.maOf mi.addr) x]) with
        array := (s.array.put (s.maOf p).toNat x).put (s.maOf mi.addr).toNat x } : State).setChan n popped
    let cleared := fun (t : State) (m : Migration) (mi : Mirror) =>
      ({ t with mig := { s.mig with flight := some { m with
        poison := m.poison &&& ~~~(1#256 <<< (offsetOf mi.addr).toNat) } } } : State)
    let merged := fun (h : Bool) (v : Half) (d : Word) =>
      freshWord (if h then v ++ d.extractLsb' 0 16 else d.extractLsb' 16 16 ++ v)
    (s.port.grant = some (.wordWrite n p none c) →
      exec .wordWriteDone s = .next (landed [.write (s.maOf p) c] c)) ∧
    (s.port.grant = some (.rawWrite n p c) → exec .rawWriteDone s = .next (landed [.write (s.maOf p) c] c)) ∧
    (∀ mi, s.port.grant = some (.wordWrite n p (some mi) c) →
      ((∀ m, s.mig.flight = some m → m.ident ≠ mi.attempt) → exec .wordWriteDone s = .next (mirrored [] mi c)) ∧
      (∀ m, s.mig.flight = some m → m.ident = mi.attempt →
        exec .wordWriteDone s = .next (cleared (mirrored [] mi c) m mi))) ∧
    (∀ l h v d, s.port.grant = some (.merge n l p none h v) → s.cell p = freshWord d →
      exec .mergeDone s =
        .next (landed [.read (s.maOf p), .write (s.maOf p) (merged h v d)] (merged h v d))) ∧
    (∀ l mi h v d, s.port.grant = some (.merge n l p (some mi) h v) → s.cell p = freshWord d →
      ((∀ m, s.mig.flight = some m → m.ident ≠ mi.attempt) →
        exec .mergeDone s = .next (mirrored [.read (s.maOf p)] mi (merged h v d))) ∧
      (∀ m, s.mig.flight = some m → m.ident = mi.attempt →
        exec .mergeDone s = .next (cleared (mirrored [.read (s.maOf p)] mi (merged h v d)) m mi))) ∧
    (∀ l mi h v, s.port.grant = some (.merge n l p mi h v) → s.cell p = poisonedWord →
      exec .mergeDone s = .next (({ s.granted [.read (s.maOf p)] with
        events := s.events.offer
          ⟨.poisonRead, hostSource n, some (blockOf p), some (blockOf l), some (offsetOf l), 1⟩ } : State).setChan n
        (if ch.state = .opened ∨ ch.state = .ended then
          { popped with state := .faulted, faultKind := .mergeRefused, faultAddr := l }
        else popped)))

/-- COPY and VERIFY grants of the attempt the engine holds: a CLEAN source word is copied fresh and its flag cleared,
a poisoned one copied in poisoned form and its flag set; the cursor rises, into VERIFY after the last word. A VERIFY
read passes CLEAN with the flag clear and POISONED with it set. The pass of offset 255 enters COMMIT_WAIT with the
cursor at 256 and requests a commit: an IDLE unit starts one whose snapshot includes the migration; a unit at work
sets its pending flag; with DIR_READONLY set, or at the generation limit, which sets it and posts COMMIT_FAILED, the
migration ends COMMIT_FAILED with its spare FREE. A failed VERIFY read condemns the spare. Below three attempts, with
a spare FREE, COPY begins again on the FREE spare of lowest index as a new attempt, cursor 0, no flag set, and
SPARE_CONDEMNED and MIGRATION_RETRY are posted; with none FREE the migration ends NO_SPARE, at the third attempt
RETRIES. The remap table stays as it was. -/
def Obligations.CopyAndVerify : Prop :=
  ∀ (s : State) (m : Migration) (src dst : Addr) (d : Word), s.quietEnd → s.mig.flight = some m →
    let raised := fun (p : BitVec 256) =>
      if m.cursor < 255 then { m with cursor := m.cursor + 1, poison := p }
      else { m with cursor := 0, phase := .verify, poison := p }
    let copied := fun (x : Codeword) (p : BitVec 256) =>
      ({ s.granted [.read (s.maOf src), .write (s.maOf dst) x] with
        array := s.array.put (s.maOf dst).toNat x, mig := { s.mig with flight := some (raised p) } } : State)
    let flag := m.poison.getLsbD m.cursor
    let passes := flag = false ∧ s.cell dst = freshWord d ∨ flag = true ∧ s.cell dst = poisonedWord
    let fails := flag = false ∧ s.cell dst = poisonedWord ∨ flag = true ∧ s.cell dst = freshWord d
    let flying := fun (x : Migration) => { s.mig with flight := some x }
    let gone := fun (e : Events) (reason : Half) => e.offer
      { kind := .migrationAbandoned, source := .migrate, phys := some m.source, logical := some m.lam, offset := none
        detail := reason }
    let condemned := s.events.offer
      { kind := .spareCondemned, source := .migrate, phys := some (s.spareBlock m.spare), logical := none
        offset := none, detail := BitVec.ofNat 16 m.spare }
    (s.port.grant = some (.copy src dst m.ident) → m.phase = .copy → s.cell src = freshWord d →
      exec .copyDone s = .next (copied (freshWord d) (m.poison &&& ~~~(1#256 <<< m.cursor)))) ∧
    (s.port.grant = some (.copy src dst m.ident) → m.phase = .copy → s.cell src = poisonedWord →
      exec .copyDone s = .next (copied poisonedWord (m.poison ||| (1#256 <<< m.cursor)))) ∧
    (s.port.grant = some (.verify dst m.ident) → m.phase = .verify →
      let read := s.granted [.read (s.maOf dst)]
      let waits := flying { m with phase := .commitWait, cursor := 256 }
      (passes → m.cursor < 255 →
        exec .verifyReadDone s = .next { read with mig := flying { m with cursor := m.cursor + 1 } }) ∧
      (passes → m.cursor = 255 →
        (s.dir.state ≠ .idle →
          exec .verifyReadDone s = .next { read with mig := waits, dir := { s.dir with pendingFlag := true } }) ∧
        (s.dir.state = .idle → s.dev.dirReadonly = false → s.dir.gen ≠ 0xFFFFFFFF →
          ∃ t r, exec .verifyReadDone s = .next t ∧ t.mig = waits ∧ t.dir.state = .writing ∧ t.dir.attempt = 1 ∧
            t.dir.word = 0 ∧ t.dir.snapshot = some r ∧ r.included = some m.ident ∧ t.map = s.map ∧
            t.array = s.array ∧ (s.scrub.passEvent = false → t.events = s.events)) ∧
        (s.dir.state = .idle → s.dev.dirReadonly = true ∨ s.dir.gen = 0xFFFFFFFF →
          s.map.spares[m.spare]? = some .allocated → s.cmd.running = none →
          ∃ t, exec .verifyReadDone s = .next t ∧ t.mig = { s.mig with flight := none } ∧ t.dir.state = .idle ∧
            t.dev = { s.dev with dirReadonly := true } ∧ t.array = s.array ∧
            t.map = { s.map with spares := s.map.spares.set m.spare .free } ∧
            t.events = if s.dev.dirReadonly then gone s.events 3
              else gone (s.events.offer { kind := .commitFailed, source := .commit, phys := none, logical := none
                                          offset := none, detail := 0 }) 3)) ∧
      (fails → s.map.spares[m.spare]? = some .allocated →
        (∀ k, m.attempt < 3 → s.map.spares[k]? = some .free → (∀ j, j < k → s.map.spares[j]? ≠ some .free) →
          ∃ t, exec .verifyReadDone s = .next t ∧ t.array = s.array ∧
            t.mig = { s.mig with
              flight := some { m with
                phase := .copy, spare := k, cursor := 0, poison := 0, attempt := m.attempt + 1, ident := s.mig.nextId }
              nextId := s.mig.nextId + 1 } ∧
            t.map = { s.map with spares := (s.map.spares.set m.spare .condemned).set k .allocated } ∧
            (s.dir.gen ≠ 0xFFFFFFFF → s.scrub.passEvent = false →
              (s.dir.state ≠ .idle → t.dir = { s.dir with pendingFlag := true }) ∧
              (s.dir.state = .idle → s.dev.dirReadonly = false → t.dir.state = .writing) ∧
              t.events = condemned.offer
                { kind := .migrationRetry, source := .migrate, phys := some (s.spareBlock k), logical := some m.lam
                  offset := some (BitVec.ofNat 8 m.cursor), detail := BitVec.ofNat 16 (m.attempt + 1) })) ∧
        (m.attempt = 3 ∨ m.attempt < 3 ∧ (∀ j : Nat, s.map.spares[j]? ≠ some .free) → s.mig.queue = [] →
          ∃ t, exec .verifyReadDone s = .next t ∧ t.mig.flight = none ∧ t.map.remap = s.map.remap ∧
            t.map.spares = s.map.spares.set m.spare .condemned ∧ t.array = s.array ∧
            (s.dir.gen ≠ 0xFFFFFFFF → s.scrub.passEvent = false →
              t.events = gone condemned (if m.attempt = 3 then 2 else 1)))))

/-- A start takes the head of the queue and the FREE spare of lowest index, which becomes ALLOCATED; the source is the
home of the block; it posts nothing. The completion of the migration that the snapshot includes makes its spare IN_USE
and posts MIGRATION_DONE with the number of poisoned words. A block with no entry takes the next slot of the remap
table; where the table holds an entry of the block, that entry names the new spare in its slot, the spare it named
becomes CONDEMNED, SPARE_CONDEMNED is posted before MIGRATION_DONE, and a further commit is requested, which sets the
pending flag. The rows by themselves are the model's choice (log 2), and the numbering of attempts (log 21). -/
def Obligations.MigrationStartsAndCompletes : Prop :=
  ∀ s : State, s.rangeRuns = false → s.scrub.range = none → s.scrub.backlog = 0 → s.dev.state = .ready →
    s.dir.state = .idle →
    (∀ b o rest k, s.mig.flight = none → s.dev.dirReadonly = false → s.mig.queue = ⟨b, o⟩ :: rest →
      s.map.spares[k]? = some .free → (∀ j, j < k → s.map.spares[j]? ≠ some .free) →
      ∃ t, exec .migrationStart s = .next t ∧
        t.mig = { queue := rest, nextId := s.mig.nextId + 1
                  flight := some { phase := .copy, lam := b, source := s.home b, spare := k, cursor := 0, poison := 0,
                                   attempt := 1, ident := s.mig.nextId } } ∧
        t.map = { s.map with spares := s.map.spares.set k .allocated } ∧
        t = { s with mig := t.mig, map := t.map, faults := t.faults }) ∧
    (∀ m x r, s.mig.flight = some m → m.phase = .commitWait → s.mig.queue = [] → s.dir.target = some x →
      s.dir.snapshot = some r → r.included = some m.ident → s.dir.gen = r.gen → s.dir.known x = ⟨true, r.gen⟩ →
      (∀ e ∈ s.map.remap, e.logical ≠ m.lam) →
      ∃ t, exec .migrationComplete s = .next t ∧ t.mig = { s.mig with flight := none } ∧
        t.map = { s.map with remap := s.map.remap ++ [⟨m.lam, m.spare⟩]
                             spares := s.map.spares.set m.spare .inUse } ∧
        t.events = s.events.offer
          { kind := .migrationDone, source := .migrate, phys := some (s.spareBlock m.spare), logical := some m.lam
            offset := none, detail := BitVec.ofNat 16 (flagsSet m.poison) } ∧
        t = { s with mig := t.mig, map := t.map, events := t.events, faults := t.faults }) ∧
    (∀ m x r old pre post, s.mig.flight = some m → m.phase = .commitWait → s.mig.queue = [] → s.dir.target = some x →
      s.dir.snapshot = some r → r.included = some m.ident → s.dir.gen = r.gen → s.dir.known x = ⟨true, r.gen⟩ →
      s.map.remap = pre ++ ⟨m.lam, old⟩ :: post → (∀ e ∈ pre ++ post, e.logical ≠ m.lam) → old ≠ m.spare →
      s.map.spares[old]? = some .inUse →
      ∃ t, exec .migrationComplete s = .next t ∧ t.mig = { s.mig with flight := none } ∧
        t.map = { s.map with remap := pre ++ ⟨m.lam, m.spare⟩ :: post
                             spares := (s.map.spares.set m.spare .inUse).set old .condemned } ∧
        t.events = (s.events.offer
          { kind := .spareCondemned, source := .migrate, phys := some (s.spareBlock old), logical := none
            offset := none, detail := BitVec.ofNat 16 old }).offer
          { kind := .migrationDone, source := .migrate, phys := some (s.spareBlock m.spare), logical := some m.lam
            offset := none, detail := BitVec.ofNat 16 (flagsSet m.poison) } ∧
        t.dir = { s.dir with pendingFlag := true } ∧
        t = { s with mig := t.mig, map := t.map, dir := t.dir, events := t.events, faults := t.faults })

/-- Scrub. A CLEAN word of a slice only moves the word position; a poisoned word outside the directory copies also
raises the poisoned-seen count; a word with one flipped bit is rewritten fresh. The 16th word completes its slice: the
cursor moves to the next slice, the next block, or block 0 with the pass counter up and, when enabled, SCRUB_PASS; the
backlog falls, lag is left, and urgent is cleared at the clearing level. A slice in a skipped block is passed over and
spends the credit of a timer expiry, at once also while a grant runs that SOFT_RESET took from the engine (log 30). An
UNCORRECTABLE word posts its record and is poisoned under POISON_ON_SCRUB; a FREE spare is condemned and a commit
requested; a directory copy read UNCORRECTABLE or POISONED is known as invalid and, with DIR_READONLY clear, a commit
is requested; with DIR_READONLY set the mark is made and no commit follows, also with a commit in progress, which R42
says does not arise. A range run moves its cursor word by word, past skipped blocks, and after its last word ends and
completes SCRUB_RANGE; the count of free orders is the model's (log 8). The timer's expiry, whenever the timer runs,
sets the tick count to 0 and adds a credit to a backlog below 15 and sets urgent at URGENT_LEVEL; at 15 the credit is
lost and counted, and SCRUB_LAG posted on entering lag. The row of the timer acts while the timer runs (log 3). -/
def Obligations.ScrubVisitsAndCredits : Prop :=
  (∀ (s : State) (a : Addr) (p : Bool) (d : Word), s.quietEnd →
    let moved := { s.scrub with holds := false, word := s.scrub.word + 1 }
    let read := s.granted [.read (s.maOf a)]
    (s.port.grant = some (.scrub a p false) → s.scrub.holds = true → s.scrub.word ≠ 15 → s.cell a = freshWord d →
      exec .scrubWordDone s = .next { read with scrub := moved }) ∧
    (s.port.grant = some (.scrub a p false) → s.scrub.holds = true → s.scrub.word ≠ 15 → s.cell a = poisonedWord →
      (blockOf a).toNat < s.physBlocks - 2 →
      exec .scrubWordDone s = .next { read with scrub := { moved with poisonedSeen := satInc s.scrub.poisonedSeen } }) ∧
    (∀ i, i < 40 → s.port.grant = some (.scrub a p false) → s.cell a = flipBit (freshWord d) i →
      ∃ t, exec .scrubWordDone s = .next t ∧ t.array = s.array.put (s.maOf a).toNat (freshWord d)) ∧
    (∀ (b : Block) (l k : BitVec 4), s.port.grant = some (.scrub a p false) → s.scrub.holds = true →
      s.scrub.word = 15 → s.cell a = freshWord d →
      (b, l) = (if s.scrub.slice ≠ 15 then (s.scrub.block, s.scrub.slice + 1)
        else if s.scrub.block.toNat < s.physBlocks - 1 then (s.scrub.block + 1, 0) else (0, 0)) →
      k = (if s.scrub.backlog = 0 then 0 else s.scrub.backlog - 1) → s.skipped b = false →
      let ends := s.scrub.slice = 15 ∧ s.physBlocks - 1 ≤ s.scrub.block.toNat
      exec .scrubWordDone s = .next { read with
        scrub := { s.scrub with
          holds := false, word := 0, block := b, slice := l, backlog := k, inLag := false
          urgent := s.scrub.urgent && decide (s.scrub.urgentLevel >>> 1 < k)
          passes := if ends then s.scrub.passes + 1 else s.scrub.passes }
        events := if ends ∧ s.scrub.passEvent = true then s.events.offer
            { kind := .scrubPass, source := .scrub, phys := none, logical := none, offset := none
              detail := s.scrub.poisonedSeen }
          else s.events })) ∧
  (∀ s : State,
    (s.timerRuns = false → exec .scrubTimerExpiry s = .next s) ∧
    (s.timerRuns = true → ∃ t, exec .scrubTimerExpiry s = .next t ∧ t.scrub.ticks = 0 ∧ t.array = s.array)) ∧
  (∀ s : State, s.timerRuns = true →
    s.scrub.holds = true ∨ (s.scrub.range = none → s.skipped s.scrub.block = false) ∧
      (∀ r, s.scrub.range = some r → s.skipped (blockOf r.cursor) = false) →
    (s.scrub.backlog ≠ 15 → exec .scrubTimerExpiry s = .next { s with scrub := { s.scrub with
      ticks := 0, backlog := s.scrub.backlog + 1
      urgent := s.scrub.urgent || decide (s.scrub.urgentLevel ≤ s.scrub.backlog + 1) } }) ∧
    (s.scrub.backlog = 15 → exec .scrubTimerExpiry s = .next { s with
      scrub := { s.scrub with ticks := 0, lagCount := satInc s.scrub.lagCount, inLag := true }
      events := if s.scrub.inLag then s.events else s.events.offer
        { kind := .scrubLag, source := .scrub, phys := some s.scrub.block, logical := none, offset := none
          detail := satInc s.scrub.lagCount } })) ∧
  (∀ s : State, s.timerRuns = true → s.scrub.range = none → s.scrub.holds = false → s.scrub.backlog = 0 →
    s.skipped s.scrub.block = true → s.scrub.slice ≠ 15 →
    exec .scrubTimerExpiry s = .next { s with scrub := { s.scrub with
      ticks := 0, slice := s.scrub.slice + 1, word := 0, urgent := false, inLag := false } }) ∧
  (∀ (s : State) (a : Addr) (p : Bool) (q : FaultRecord), s.port.stopped = false → s.dev.state = .ready →
    s.rangeRuns = false → s.scrub.range = none → s.port.grant = some (.scrub a p false) → s.scrub.holds = true →
    s.scrub.passEvent = false → s.spareCtrl.autoUncorrectable = false → s.spareCtrl.threshold = 0 →
    s.faults.recordOf (blockOf a) = some q →
    let found : EventRecord :=
      { kind := .uncorrectable, source := .scrub, phys := some (blockOf a), logical := s.servedBy (blockOf a)
        offset := some (offsetOf a), detail := if p then 1 else 0 }
    ((decodeWord (s.cell a)).cls = .uncorrectable → ∃ t, exec .scrubWordDone s = .next t ∧
      t.array = (if p then s.array.put (s.maOf a).toNat poisonedWord else s.array) ∧
      (s.roleOf (blockOf a) = .data → t.events = s.events.offer found ∧ t.map = s.map ∧ t.dir = s.dir) ∧
      (∀ k, s.roleOf (blockOf a) = .spare k .free → s.dir.state ≠ .idle →
        t.map = { s.map with spares := s.map.spares.set k .condemned } ∧ t.dir = { s.dir with pendingFlag := true } ∧
        t.events = (s.events.offer found).offer
          { kind := .spareCondemned, source := .scrub, phys := some (s.spareBlock k), logical := none, offset := none
            detail := BitVec.ofNat 16 k })) ∧
    (∀ x, (decodeWord (s.cell a)).cls = .uncorrectable ∨ (decodeWord (s.cell a)).cls = .poisoned →
      s.roleOf (blockOf a) = .copy x → (s.dir.known x).valid = true → ∃ t, exec .scrubWordDone s = .next t ∧
        (t.dir.known x).valid = false ∧
        (s.dir.state ≠ .idle → s.dev.dirReadonly = false →
          t.dir.pendingFlag = true ∧ t.dir.state = s.dir.state ∧ t.map = s.map) ∧
        (s.dev.dirReadonly = true →
          t.dir.pendingFlag = s.dir.pendingFlag ∧ t.dir.state = s.dir.state ∧ t.map = s.map) ∧
        (s.dir.state = .idle → s.dev.dirReadonly = false → s.dir.gen ≠ 0xFFFFFFFF → t.dir.state = .writing ∧
          t.dir.target = some (if s.dir.copyA.valid = true ∧ x = .b then .b else .a)))) ∧
  (∀ (s : State) (a : Addr) (p : Bool) (d : Word) (r : RangeRun) (x y : Half), s.port.stopped = false →
    s.dev.state = .ready → s.cmd.running = some (.scrubRange x y) → s.scrub.range = some r →
    s.port.grant = some (.scrub a p true) → s.scrub.holds = true → s.cell a = freshWord d →
    let read := ({ s.granted [.read (s.maOf a)] with choices := s.choices + 1 } : State)
    let stands := fun (z : Addr) => ({ read with
      scrub := { s.scrub with holds := false, range := some { r with cursor := z } } } : State)
    (a < wordAddr r.last 255 → s.skipped (blockOf (a + 1)) = false → exec .scrubWordDone s = .next (stands (a + 1))) ∧
    (∀ b : Block, a + 1 = wordAddr b 0 → b < r.last → s.skipped b = true → s.skipped (b + 1) = false →
      a < wordAddr r.last 255 → exec .scrubWordDone s = .next (stands (wordAddr (b + 1) 0))) ∧
    (a = wordAddr r.last 255 → s.skipped s.scrub.block = false → exec .scrubWordDone s = .next { read with
      scrub := { s.scrub with holds := false, range := none }
      cmd := { s.cmd with result := .ok, running := none }
      irq := { s.irq with cmdDone := true }
      events := s.events.offer (commandDoneRecord s.cmd.field .ok) }))

/-- A report of a mount read, a fetch or a SCRUB_WORD, CORRECTED or UNCORRECTABLE, where it asks for no migration and
no condemnation: the record of the block counts it, the corrected count saturating at 255 and the uncorrectable count
at 15, takes its offset and source and becomes the most recent; with no record one is made in the lowest empty slot,
OBSERVED, with count 1; with no empty slot the new record takes the slot of the evicted one, which is the least
recently updated RETIRED record, else the least recently updated UNSPAREABLE one, else, among the OBSERVED records
with no uncorrectable count, the one with the lowest corrected count, the least recently updated among equals, and
nothing is posted; with no slot and no record that may be evicted (QUEUED, MIGRATING, or OBSERVED with an
uncorrectable count) the untracked counter rises and FAULT_TABLE_FULL is posted on entering the untracked condition.
What is posted is said where the requester posts nothing of its own. -/
def Obligations.ReportsAreCounted : Prop :=
  ∀ (s : State) (c : Instr) (src : Source) (a : Addr) (bad : Bool) (d : Word) (i : Nat), s.quietEnd →
    s.spareCtrl.reportCorrected = false →
    (c = .mountReadDone ∧ src = .mount ∧ s.dev.state = .mounting ∧ s.port.grant = some (.mountRead a) ∧
        s.mount.word.toNat < 511 ∨
      s.dev.state = .ready ∧ s.spareCtrl.threshold = 0 ∧ s.spareCtrl.autoUncorrectable = false ∧
        ((∃ n l, c = .fetchComplete ∧ src = hostSource n ∧ s.port.grant = some (.wordRead n l a)) ∨
         (∃ p, c = .scrubWordDone ∧ src = .scrub ∧ s.port.grant = some (.scrub a p false) ∧
           s.scrub.passEvent = false ∧ s.dir.gen ≠ 0xFFFFFFFF))) →
    (if bad then (decodeWord (s.cell a)).cls = .uncorrectable else i < 40 ∧ s.cell a = flipBit (freshWord d) i) →
    let b := blockOf a
    let counted := fun (r : FaultRecord) => { r with
      logical := s.refreshLogical b r.logical, lastOffset := offsetOf a, lastSource := src
      corrected := if bad ∨ r.corrected = 255 then r.corrected else r.corrected + 1
      uncorrectable := if bad ∧ r.uncorrectable ≠ 15 then r.uncorrectable + 1 else r.uncorrectable }
    let fresh : FaultRecord :=
      { phys := b, logical := s.refreshLogical b none, corrected := if bad then 0 else 1
        uncorrectable := if bad then 1 else 0, lastOffset := offsetOf a, lastSource := src, state := .observed }
    let alone := c = .mountReadDone ∨
      bad = false ∧ s.host.held = none ∧ ∀ n, ∀ x ∈ (s.chan n).readAhead, x.mark = none
    ∃ t, exec c s = .next t ∧ t.mig = s.mig ∧ (src ≠ .scrub → t.array = s.array) ∧
      (∀ r, s.faults.recordOf b = some r → t.faults.recordOf b = some (counted r) ∧ (alone → t.events = s.events) ∧
        t.faults.order = (s.faults.order.filter fun x => x != b) ++ [b] ∧ t.faults.untracked = s.faults.untracked ∧
        t.faults.full = s.faults.full) ∧
      (∀ k, s.faults.recordOf b = none → s.faults.slots.toList[k]? = some none →
        (∀ j, j < k → s.faults.slots.toList[j]? ≠ some none) → (alone → t.events = s.events) ∧
        t.faults.full = false ∧ t.faults.order = (s.faults.order.filter fun x => x != b) ++ [b] ∧
        t.faults.untracked = s.faults.untracked ∧
        t.faults.slots.toList = s.faults.slots.toList.set k (some fresh)) ∧
      (∀ (k : Nat) (v : FaultRecord) (pre post : List Block),
        (∀ x ∈ s.faults.slots.toList, ∃ r, x = some r ∧ r.phys ≠ b) → s.faults.slots.toList[k]? = some (some v) →
        (∀ j r, s.faults.slots.toList[j]? = some (some r) → r.phys = v.phys → j = k) →
        s.faults.order = pre ++ v.phys :: post →
        (let found := s.faults.recordOf
         v.state = .retired ∧ (∀ x ∈ pre, ∀ r, found x = some r → r.state ≠ .retired) ∨
         v.state = .unspareable ∧ (∀ x ∈ s.faults.order, ∀ r, found x = some r → r.state ≠ .retired) ∧
           (∀ x ∈ pre, ∀ r, found x = some r → r.state ≠ .unspareable) ∨
         v.state = .observed ∧ v.uncorrectable = 0 ∧
           (∀ x ∈ s.faults.order, ∀ r, found x = some r → r.state ≠ .retired ∧ r.state ≠ .unspareable) ∧
           (∀ x ∈ pre, ∀ r, found x = some r → r.state = .observed → r.uncorrectable = 0 → v.corrected < r.corrected) ∧
           (∀ x ∈ post, ∀ r, found x = some r → r.state = .observed → r.uncorrectable = 0 →
             v.corrected ≤ r.corrected)) →
        t.faults.slots.toList = s.faults.slots.toList.set k (some fresh) ∧ (alone → t.events = s.events) ∧
          t.faults.order = (s.faults.order.filter fun x => x != v.phys && x != b) ++ [b] ∧ t.faults.full = false ∧
          t.faults.untracked = s.faults.untracked) ∧
      ((∀ x ∈ s.faults.slots.toList, ∃ r, x = some r ∧ r.phys ≠ b ∧
          (r.state = .queued ∨ r.state = .migrating ∨ r.state = .observed ∧ r.uncorrectable ≠ 0)) →
        t.faults = { s.faults with untracked := satInc s.faults.untracked, full := true } ∧
        (alone → t.events = if s.faults.full then s.events else s.events.offer
          { kind := .faultTableFull, source := src, phys := some b, logical := s.refreshLogical b none,
            offset := some (offsetOf a), detail := satInc s.faults.untracked }))

/-- A CORRECTED report of a block in service, with its record OBSERVED and a migration of another block in flight:
when the count reaches SPARE_THRESHOLD, or AUTO_SPARE_UNCORRECTABLE finds an uncorrectable count, a request with
origin AUTO joins the migration queue and the record is QUEUED; otherwise neither changes but for the count. -/
def Obligations.ThresholdAsksForMigration : Prop :=
  ∀ (s : State) (n : Fin 4) (l p : Addr) (d : Word) (i : Nat) (r : FaultRecord) (m : Migration) (lam : Block),
    s.quietEnd →
    s.dev.state = .ready → s.port.grant = some (.wordRead n l p) → s.host.held = none → i < 40 →
    s.cell p = flipBit (freshWord d) i → s.spareCtrl.reportCorrected = false →
    s.faults.recordOf (blockOf p) = some r → r.state = .observed → s.servedBy (blockOf p) = some lam →
    s.home lam = blockOf p → s.mig.flight = some m → m.lam ≠ lam → (∀ q ∈ s.mig.queue, q.block ≠ lam) →
    s.mig.queue.length < 8 →
    let fires := s.spareCtrl.threshold ≠ 0 ∧ s.spareCtrl.threshold ≤ satInc r.corrected ∨
      s.spareCtrl.autoUncorrectable = true ∧ r.uncorrectable ≠ 0
    ∃ t q, exec .fetchComplete s = .next t ∧ t.faults.recordOf (blockOf p) = some q ∧
      q.corrected = satInc r.corrected ∧ q.uncorrectable = r.uncorrectable ∧ q.lastSource = hostSource n ∧
      t.array = s.array ∧ t.map = s.map ∧
      (fires → q.state = .queued ∧ t.mig = { s.mig with queue := s.mig.queue ++ [⟨lam, .auto⟩] }) ∧
      (¬ fires → q.state = .observed ∧ t.mig = s.mig)

/-- The mount reader folds each CLEAN word into its copy's tests; the last word decides the outcome by both verdicts.
Both INVALID: UNFORMATTED with nothing loaded. Both VALID: READY with the map and G of the copy of the higher
generation. One VALID: READY, MOUNTED_SINGLE, with the map and G of that copy, and, with DIR_READONLY clear below the
generation limit, a repair commit of the other copy started with the next generation. None VALID and one or both
FOREIGN: FOREIGN with nothing loaded. MOUNT_DONE carries the outcome and the copy, for FOREIGN also that copy's stored
L and S; a REMOUNT in progress completes after it. -/
def Obligations.MountReads : Prop :=
  ∀ (s : State) (a : Addr) (d : Word), s.quietEnd → s.dev.state = .mounting → s.port.grant = some (.mountRead a) →
    s.mount.holds = true → s.cell a = freshWord d →
    let o := s.mount.word.toNat % 256
    let added := fun (f : CopyFold) =>
      ({ allGood := f.allGood, sum := f.sum + d, words := if o < 68 then f.words ++ [d] else f.words } : CopyFold)
    let va := s.mount.foldA.verdict s.physBlocks
    let vb := (added s.mount.foldB).verdict s.physBlocks
    let fold := fun (x : Copy) => if x = .a then s.mount.foldA else added s.mount.foldB
    let later : Copy := if s.mount.foldA.gen < (added s.mount.foldB).gen then .b else .a
    let posts := fun (t : State) (phys logical : Option Block) (offset : Option Offset) (detail : Half) =>
      s.scrub.passEvent = false →
      let e := s.events.offer
        { kind := .mountDone, source := .mount, phys := phys, logical := logical, offset := offset, detail := detail }
      t.events = if s.cmd.running = some .remount then e.offer (commandDoneRecord s.cmd.field .ok) else e
    (s.mount.word.toNat < 256 → exec .mountReadDone s = .next { s.granted [.read (s.maOf a)] with
      mount := { s.mount with word := s.mount.word + 1, holds := false, foldA := added s.mount.foldA } }) ∧
    (256 ≤ s.mount.word.toNat → s.mount.word.toNat < 511 →
      exec .mountReadDone s = .next { s.granted [.read (s.maOf a)] with
        mount := { s.mount with word := s.mount.word + 1, holds := false, foldB := added s.mount.foldB } }) ∧
    (s.mount.word.toNat = 511 → va = .invalid → vb = .invalid → ∃ t, exec .mountReadDone s = .next t ∧
      t.dev = { s.dev with state := .unformatted, outcome := .unformatted } ∧ t.map = s.map ∧ t.dir = s.dir ∧
      t.mount.running = false ∧ t.array = s.array ∧ posts t none none none 0) ∧
    (s.mount.word.toNat = 511 → va = .valid → vb = .valid → ∃ t, exec .mountReadDone s = .next t ∧
      t.dev = { s.dev with state := .ready, outcome := .mounted } ∧ t.array = s.array ∧
      t.map = ⟨true, (fold later).spares, (fold later).entries⟩ ∧ t.dir.gen = (fold later).gen ∧
      t.dir.copyA = ⟨true, (fold .a).gen⟩ ∧ t.dir.copyB = ⟨true, (fold .b).gen⟩ ∧ t.dir.state = s.dir.state ∧
      posts t (some (s.copyBlock later)) none none 1) ∧
    (∀ x : Copy, s.mount.word.toNat = 511 →
      (if x = .a then va = .valid ∧ vb ≠ .valid else vb = .valid ∧ va ≠ .valid) →
      ∃ t, exec .mountReadDone s = .next t ∧ t.array = s.array ∧
        t.map = ⟨true, (fold x).spares, (fold x).entries⟩ ∧ t.dir.gen = (fold x).gen ∧
        (s.dir.state = .idle → s.dev.dirReadonly = false → (fold x).gen ≠ 0xFFFFFFFF → s.mig.flight = none →
          t.dev = { s.dev with state := .ready, outcome := .mountedSingle } ∧
          t.dir.state = .writing ∧ t.dir.attempt = 1 ∧ t.dir.word = 0 ∧
          t.dir.target = some (if x = .a then .b else .a) ∧ t.dir.known x = ⟨true, (fold x).gen⟩ ∧
          (t.dir.known (if x = .a then .b else .a)).valid = false ∧
          t.dir.snapshot = some ⟨(fold x).gen + 1, s.physBlocks, (fold x).entries, (fold x).spares, none⟩ ∧
          posts t (some (s.copyBlock x)) none none 2)) ∧
    (∀ x : Copy, s.mount.word.toNat = 511 → va ≠ .valid → vb ≠ .valid → va = .foreign ∨ vb = .foreign →
      x = (if vb ≠ .foreign then .a else if va ≠ .foreign then .b else later) →
      ∃ t, exec .mountReadDone s = .next t ∧ t.dev = { s.dev with state := .foreign, outcome := .foreign } ∧
        t.map = s.map ∧ t.dir = s.dir ∧ t.array = s.array ∧
        posts t (some (s.copyBlock x)) (some (BitVec.ofNat 12 (fold x).storedL))
          (some (BitVec.ofNat 8 (fold x).storedS)) 3)

/-- The format filler. What it asks for: stage ZERO writes a fresh zero word at word 0 of copy A, then of copy B; FILL
names its address; a copy stage writes word 0 as zero and words 1 to 255 of the copy's content (generation 1 for A, 2
for B, the real P, no entries, every spare FREE), reads all 256 back, and closes with the signature at word 0. What a
completion does: the two words of ZERO, then the FILL words ascending, then the words of copy A, then of copy B; word
255 leads into READBACK; a readback word that is CLEAN with the data written moves on, the last one to the closing
write; one that is not starts another attempt while the count is 1 or 2, and at 3 leaves the copy unwritten and goes
on; the closing write marks the copy written. After copy B FORMAT ends: OK in READY with both written, OK_DEGRADED in
READY and DIR_READONLY with one, DIR_FAIL in UNFORMATTED with none, the commit unit's knowledge as written, and the
fault table empty (emptied there by the model's choice, log 29). -/
def Obligations.FillerStages : Prop :=
  ∀ (s : State) (f : Filler) (a : Addr) (c : Codeword) (d : Word), s.quietEnd → s.dev.state = .formatting →
    s.filler = some f →
    let inCopy := f.stage = .copyA ∨ f.stage = .copyB
    let block : Block := BitVec.ofNat 12 (s.physBlocks - if f.stage = .copyB then 1 else 2)
    let content : Snapshot :=
      { gen := if f.stage = .copyB then 2 else 1, blocks := s.physBlocks, entries := []
        spares := List.replicate s.spareCount .free, included := none }
    let expected := if f.word = 0 then 0 else content.wordAt f.word.toNat
    let wrote := fun (g : Filler) => ({ s.granted [.write (s.maOf a) c] with
      array := s.array.put (s.maOf a).toNat c, filler := some g } : State)
    let read := fun (g : Filler) => ({ s.granted [.read (s.maOf a)] with filler := some g } : State)
    let ended := fun (t : State) (x y : Bool) => t.filler = none ∧
      t.dev = { s.dev with
        state := if x ∨ y then .ready else .unformatted
        outcome := if x ∧ y then .mounted else if x ∨ y then .mountedSingle else .unformatted
        dirReadonly := (x || y) && !(x && y) } ∧
      t.map = (if x ∨ y then s.map else ⟨false, [], []⟩) ∧
      t.dir = { s.dir with
        gen := if y then 2 else if x then 1 else 0, copyA := if x then ⟨true, 1⟩ else ⟨false, 0⟩
        copyB := if y then ⟨true, 2⟩ else ⟨false, 0⟩ } ∧
      t.faults = FaultTable.empty ∧
      (∀ v, s.cmd.running = some (.format v) → t.cmd.running = none ∧ t.irq.cmdDone = true ∧
        t.cmd.result = if x ∧ y then .ok else if x ∨ y then .okDegraded else .dirFail)
    (f.stage = .zero → s.fillerGrant f = .fillerWrite
      (wordAddr (BitVec.ofNat 12 (s.physBlocks - if f.word = 0 then 2 else 1)) 0) (freshWord 0)) ∧
    (f.stage = .fill → s.fillerGrant f = .fill f.addr) ∧
    (inCopy → s.fillerGrant f = match f.phase with
      | .writing => .fillerWrite (wordAddr block f.word) (freshWord expected)
      | .readback => .fillerRead (wordAddr block f.word)
      | .closing => .fillerWrite (wordAddr block 0) (freshWord 0x3B9E0A71)) ∧
    (s.port.grant = some (.fillerWrite a c) → f.stage = .zero → f.word = 0 →
      exec .formatCopyGrantDone s = .next (wrote { f with word := 1 })) ∧
    (s.port.grant = some (.fillerWrite a c) → f.stage = .zero → f.word ≠ 0 →
      exec .formatCopyGrantDone s = .next (wrote { f with stage := .fill, addr := 0, word := 0 })) ∧
    (s.port.grant = some (.fill a) → c = freshWord 0 → f.addr.toNat ≠ (s.physBlocks - 2) * 256 - 1 →
      exec .fillDone s = .next (wrote { f with addr := f.addr + 1 })) ∧
    (s.port.grant = some (.fill a) → c = freshWord 0 → f.addr.toNat = (s.physBlocks - 2) * 256 - 1 →
      exec .fillDone s = .next (wrote { f with stage := .copyA, word := 0, phase := .writing, attempt := 1 })) ∧
    (s.port.grant = some (.fillerWrite a c) → inCopy → f.phase = .writing → exec .formatCopyGrantDone s = .next (wrote
      (if f.word = 255 then { f with word := 0, phase := .readback } else { f with word := f.word + 1 }))) ∧
    (s.port.grant = some (.fillerRead a) → inCopy → s.cell a = freshWord d → d = expected →
      exec .formatCopyGrantDone s = .next (read
        (if f.word = 255 then { f with phase := .closing } else { f with word := f.word + 1 }))) ∧
    (s.port.grant = some (.fillerRead a) → inCopy → s.cell a = freshWord d → d ≠ expected → f.attempt < 3 →
      exec .formatCopyGrantDone s = .next (read { f with attempt := f.attempt + 1, word := 0, phase := .writing })) ∧
    (s.port.grant = some (.fillerRead a) → f.stage = .copyA → s.cell a = freshWord d → d ≠ expected → f.attempt = 3 →
      exec .formatCopyGrantDone s = .next (read { f with
        stage := .copyB, word := 0, phase := .writing, attempt := 1 })) ∧
    (s.port.grant = some (.fillerRead a) → f.stage = .copyB → s.cell a = freshWord d → d ≠ expected → f.attempt = 3 →
      f.wroteB = false → ∃ t, exec .formatCopyGrantDone s = .next t ∧ t.array = s.array ∧ ended t f.wroteA false) ∧
    (s.port.grant = some (.fillerWrite a c) → f.stage = .copyA → f.phase = .closing →
      exec .formatCopyGrantDone s = .next (wrote { f with
        stage := .copyB, word := 0, phase := .writing, attempt := 1, wroteA := true })) ∧
    (s.port.grant = some (.fillerWrite a c) → f.stage = .copyB → f.phase = .closing →
      ∃ t, exec .formatCopyGrantDone s = .next t ∧ t.array = s.array.put (s.maOf a).toNat c ∧ ended t f.wroteA true)

/-- A commit's grants: each write moves the word index, the last one into READBACK; a readback that is CLEAN with the
word written moves on, the last one to the closing write; one that is not starts another attempt while the count is 1
or 2, and at 3 fails the commit: DIR_READONLY set, COMMIT_FAILED posted with detail 3, the unit IDLE; a migration in
COMMIT_WAIT is abandoned with its spare FREE, MIGRATION_ABANDONED with reason COMMIT_FAILED follows, and a COMMIT that
waits completes with DIR_READONLY after it. The closing write raises G and makes the target valid with it; with the
pending flag clear the unit is IDLE; a migration that the snapshot includes completes, with its entry, its IN_USE
spare and MIGRATION_DONE, and a COMMIT that waits for this commit completes with OK after it; where the table holds an
entry of its block, that entry takes the new spare, the old one is CONDEMNED, SPARE_CONDEMNED comes before
MIGRATION_DONE, and the further commit starts at once; one that it does not include waits on. A commit that the
pending flag asks for starts (COMMIT_START, and the end of a successful commit): the flag is cleared, attempt 1, word
0, the target known as invalid, the snapshot with the next generation and the migration in COMMIT_WAIT. COMMIT_START
by itself is the model's choice (log 2). -/
def Obligations.CommitAdvances : Prop :=
  (∀ (s : State) (x : Copy) (r : Snapshot) (a : Addr) (c : Codeword) (d : Word), s.quietEnd → s.dir.target = some x →
    s.dir.snapshot = some r → s.dir.state ≠ .idle →
    let read := s.granted [.read (s.maOf a)]
    let wrote := ({ s.granted [.write (s.maOf a) c] with array := s.array.put (s.maOf a).toNat c } : State)
    let expected := if s.dir.word = 0 then 0 else r.wordAt s.dir.word.toNat
    let succeeded := { ({ s.dir with gen := s.dir.gen + 1 } : CommitUnit).setKnown x ⟨true, s.dir.gen + 1⟩ with
      state := .idle, pendingFlag := false, closing := false }
    let failed := { s.dir with state := .idle, pendingFlag := false, closing := false }
    let done := if s.spareCtrl.commitDoneEvent then s.events.offer
        { kind := .commitDone, source := .commit, phys := some (s.copyBlock x), logical := none, offset := none
          detail := (s.dir.gen + 1).extractLsb' 0 16 }
      else s.events
    let lost := s.events.offer
      { kind := .commitFailed, source := .commit, phys := some (s.copyBlock x), logical := none, offset := none
        detail := 3 }
    (s.port.grant = some (.dirWrite a c) → s.dir.word ≠ 255 → exec .commitWriteDone s =
      .next { wrote with dir := { s.dir with word := s.dir.word + 1 } }) ∧
    (s.port.grant = some (.dirWrite a c) → s.dir.word = 255 → exec .commitWriteDone s =
      .next { wrote with dir := { s.dir with word := 0, state := .readback } }) ∧
    (s.port.grant = some (.dirRead a) → s.cell a = freshWord d → d = expected → exec .commitReadbackDone s =
      .next { read with dir := if s.dir.word = 255 then { s.dir with closing := true }
                               else { s.dir with word := s.dir.word + 1 } }) ∧
    (s.port.grant = some (.dirRead a) → s.cell a = freshWord d → d ≠ expected → s.dir.attempt < 3 →
      exec .commitReadbackDone s = .next { read with dir := { s.dir with
        attempt := s.dir.attempt + 1, word := 0, state := .writing, closing := false } }) ∧
    (s.port.grant = some (.dirRead a) → s.cell a = freshWord d → d ≠ expected → s.dir.attempt = 3 →
      (s.mig.flight = none → s.cmd.running = none → exec .commitReadbackDone s = .next { read with
        dir := failed, dev := { s.dev with dirReadonly := true }, events := lost }) ∧
      (∀ m, s.mig.flight = some m → m.phase = .commitWait → s.map.spares[m.spare]? = some .allocated →
        ∃ t, exec .commitReadbackDone s = .next t ∧ t.dir = failed ∧ t.dev = { s.dev with dirReadonly := true } ∧
          t.mig = { s.mig with flight := none } ∧ t.array = s.array ∧
          t.map = { s.map with spares := s.map.spares.set m.spare .free } ∧
          (let gone := lost.offer
             { kind := .migrationAbandoned, source := .migrate, phys := some m.source, logical := some m.lam
               offset := none, detail := 3 }
           (∀ next, s.cmd.running = some (.commit next) →
             t.cmd = { s.cmd with result := .dirReadonly, running := none } ∧ t.irq.cmdDone = true ∧
             t.events = gone.offer (commandDoneRecord s.cmd.field .dirReadonly)) ∧
           (s.cmd.running = none → t.cmd = s.cmd ∧ t.events = gone)))) ∧
    (s.port.grant = some (.dirClose a c) → s.dir.pendingFlag = false → s.mig.flight = none → s.cmd.running = none →
      exec .closingWriteDone s = .next { wrote with dir := succeeded, events := done }) ∧
    (∀ m, s.port.grant = some (.dirClose a c) → s.dir.pendingFlag = false → s.mig.flight = some m →
      m.phase = .commitWait → r.included = some m.ident → s.mig.queue = [] → (∀ e ∈ s.map.remap, e.logical ≠ m.lam) →
      s.scrub.passEvent = false → ∃ t, exec .closingWriteDone s = .next t ∧ t.dir = succeeded ∧ t.dev = s.dev ∧
        t.mig = { s.mig with flight := none } ∧ t.array = s.array.put (s.maOf a).toNat c ∧
        t.map = { s.map with remap := s.map.remap ++ [⟨m.lam, m.spare⟩], spares := s.map.spares.set m.spare .inUse } ∧
        (let moved := done.offer
           { kind := .migrationDone, source := .migrate, phys := some (s.spareBlock m.spare), logical := some m.lam
             offset := none, detail := BitVec.ofNat 16 (flagsSet m.poison) }
         (s.cmd.running = some (.commit false) → t.cmd = { s.cmd with result := .ok, running := none } ∧
           t.irq.cmdDone = true ∧ t.events = moved.offer (commandDoneRecord s.cmd.field .ok)) ∧
         (s.cmd.running = none → t.cmd = s.cmd ∧ t.events = moved))) ∧
    (∀ m old pre post, s.port.grant = some (.dirClose a c) → s.mig.flight = some m → m.phase = .commitWait →
      r.included = some m.ident → s.mig.queue = [] → s.map.remap = pre ++ ⟨m.lam, old⟩ :: post →
      (∀ e ∈ pre ++ post, e.logical ≠ m.lam) → old ≠ m.spare → s.map.spares[old]? = some .inUse →
      s.dir.gen ≠ 0xFFFFFFFE → s.scrub.passEvent = false →
      ∃ t q, exec .closingWriteDone s = .next t ∧ t.mig = { s.mig with flight := none } ∧
        t.array = s.array.put (s.maOf a).toNat c ∧ t.dev = s.dev ∧
        t.map = { s.map with remap := pre ++ ⟨m.lam, m.spare⟩ :: post
                             spares := (s.map.spares.set m.spare .inUse).set old .condemned } ∧
        t.dir.state = .writing ∧ t.dir.pendingFlag = false ∧ t.dir.attempt = 1 ∧ t.dir.word = 0 ∧
        t.dir.gen = s.dir.gen + 1 ∧ t.dir.snapshot = some q ∧ q.gen = s.dir.gen + 2 ∧ q.entries = t.map.remap ∧
        q.spares[old]? = some .condemned ∧ q.included = none ∧
        (let moved := (done.offer
             { kind := .spareCondemned, source := .migrate, phys := some (s.spareBlock old), logical := none
               offset := none, detail := BitVec.ofNat 16 old }).offer
           { kind := .migrationDone, source := .migrate, phys := some (s.spareBlock m.spare), logical := some m.lam
             offset := none, detail := BitVec.ofNat 16 (flagsSet m.poison) }
         (s.cmd.running = some (.commit false) → t.cmd = { s.cmd with result := .ok, running := none } ∧
           t.irq.cmdDone = true ∧ t.events = moved.offer (commandDoneRecord s.cmd.field .ok)) ∧
         (s.cmd.running = none → t.cmd = s.cmd ∧ t.events = moved)))) ∧
  (∀ s : State, s.rangeRuns = false → s.scrub.range = none → s.scrub.backlog = 0 → s.dev.state = .ready →
    s.dir.pendingFlag = true → s.dir.gen ≠ 0xFFFFFFFF →
    (s.dir.state = .idle → s.dev.dirReadonly = false →
      ∃ t x r, exec .commitStart s = .next t ∧ t.dir.state = .writing ∧ t.dir.pendingFlag = false ∧ t.dir.attempt = 1 ∧
        t.dir.word = 0 ∧ t.dir.target = some x ∧ (t.dir.known x).valid = false ∧ t.dir.gen = s.dir.gen ∧
        t.dir.snapshot = some r ∧ r.gen = s.dir.gen + 1 ∧ r.blocks = s.physBlocks ∧ t.array = s.array ∧
        t.map = s.map ∧ t.events = s.events) ∧
    (∀ a c y, s.port.grant = some (.dirClose a c) → s.port.stopped = false → s.dir.state = .readback →
      s.dir.target = some y → (∀ m, s.mig.flight = some m → m.phase = .commitWait ∧
        ∀ q, s.dir.snapshot = some q → q.included ≠ some m.ident) → s.dir.gen ≠ 0xFFFFFFFE →
      ∃ t x r, exec .closingWriteDone s = .next t ∧ t.dir.state = .writing ∧ t.dir.pendingFlag = false ∧
        t.dir.attempt = 1 ∧ t.dir.word = 0 ∧ t.dir.target = some x ∧ t.dir.gen = s.dir.gen + 1 ∧
        t.dir.snapshot = some r ∧ r.gen = s.dir.gen + 2 ∧ t.map = s.map ∧ t.mig = s.mig ∧
        r.included = s.mig.flight.map (·.ident)))
end

