-- ==== Sys2Proof/Laws/Code.lean ====
section
/-! SUPPORT. The check code: the signatures obey R3, the encoder is linear, what a flipped bit does to the syndrome. -/

namespace Sys2Proof.Machine

/-! ### The signatures (R3) -/

/-- The laws of R3 can be met. -/
theorem sampleColumns_lawful : lawfulColumns sampleColumns = true := by decide +kernel

/-- The signatures of the model obey R3 whatever the free value is. -/
theorem dataSignature_lawful : lawfulColumns dataSignature = true := by
  by_cases h : lawfulColumns Config.checkColumns = true
  · have : dataSignature = Config.checkColumns := by
      funext i; simp [dataSignature, h]
    rw [this]; exact h
  · have : dataSignature = sampleColumns := by
      funext i; simp [dataSignature, h]
    rw [this]; exact sampleColumns_lawful

/-- The 40 signatures in order. -/
theorem signatures_get {i : Nat} (h : i < 40) : (signaturesOf dataSignature)[i]? = some (signatureAt i) := by
  unfold signaturesOf signatureAt
  by_cases h1 : i < 32
  · rw [List.getElem?_append_left (by simpa using h1)]
    simp [h1]
  · rw [List.getElem?_append_right (by simpa using h1)]
    by_cases h2 : i = 32
    · simp [h2]
    · have : i - 32 = (i - 33) + 1 := by omega
      simp only [List.length_map, List.length_range, this, List.getElem?_cons_succ, h1, h2, if_false]
      rw [List.getElem?_map, List.getElem?_range (by omega)]
      rfl

theorem signatures_length : (signaturesOf dataSignature).length = 40 := by simp [signaturesOf]

theorem signatureAt_mem {i : Nat} (h : i < 40) : signatureAt i ∈ signaturesOf dataSignature :=
  List.mem_of_getElem? (signatures_get h)

theorem signatures_laws : (signaturesOf dataSignature).Nodup ∧ (0 : Check) ∉ signaturesOf dataSignature ∧
    (signaturesOf dataSignature).Pairwise fun x y => x ^^^ y ∉ signaturesOf dataSignature := by
  have h := dataSignature_lawful
  simp only [lawfulColumns, Bool.and_eq_true, decide_eq_true_eq] at h
  refine ⟨h.1.1, by simpa using h.1.2, h.2.imp ?_⟩
  intro x y hxy
  simpa using hxy

theorem signatureAt_ne_zero {i : Nat} (h : i < 40) : signatureAt i ≠ 0 := fun e =>
  signatures_laws.2.1 (e ▸ signatureAt_mem h)

theorem signatureAt_inj {i j : Nat} (hi : i < 40) (hj : j < 40) (h : signatureAt i = signatureAt j) : i = j := by
  have hn := signatures_laws.1
  have := hn.getElem_inj_iff (i := i) (j := j) (hi := by simp [signatures_length, hi]) (hj := by simp [signatures_length, hj])
  apply this.1
  have a := signatures_get hi
  have b := signatures_get hj
  rw [List.getElem?_eq_getElem (by simp [signatures_length, hi])] at a
  rw [List.getElem?_eq_getElem (by simp [signatures_length, hj])] at b
  simp only [Option.some.injEq] at a b
  rw [a, b, h]

/-- The syndrome of two flipped bits is the signature of no position (R3). -/
theorem signatureAt_pair {i j k : Nat} (hi : i < 40) (hj : j < 40) (hk : k < 40) (h : i ≠ j) :
    signatureAt k ≠ signatureAt i ^^^ signatureAt j := by
  have key : ∀ {a b : Nat}, a < b → b < 40 → signatureAt a ^^^ signatureAt b ∉ signaturesOf dataSignature := by
    intro a b hab hb
    have hp := List.pairwise_iff_getElem.1 signatures_laws.2.2 a b (by rw [signatures_length]; omega)
      (by rw [signatures_length]; omega) hab
    have ga := signatures_get (show a < 40 by omega)
    have gb := signatures_get hb
    rw [List.getElem?_eq_getElem (by rw [signatures_length]; omega)] at ga gb
    simp only [Option.some.injEq] at ga gb
    rwa [ga, gb] at hp
  intro e
  rcases Nat.lt_or_gt_of_ne h with hl | hl
  · exact key hl hj (e ▸ signatureAt_mem hk)
  · rw [BitVec.xor_comm] at e
    exact key hl hi (e ▸ signatureAt_mem hk)

/-! ### Locating a syndrome -/

theorem locate_signature {i : Nat} (h : i < 40) : locate (signatureAt i) = some i := by
  unfold locate
  rw [List.find?_range_eq_some]
  refine ⟨by simp, List.mem_range.2 h, ?_⟩
  intro j hj
  have : signatureAt j ≠ signatureAt i := fun e => by
    have := signatureAt_inj (by omega) h e
    omega
  simpa using this

theorem locate_pair {i j : Nat} (hi : i < 40) (hj : j < 40) (h : i ≠ j) :
    locate (signatureAt i ^^^ signatureAt j) = none := by
  unfold locate
  rw [List.find?_eq_none]
  intro k hk
  simpa using signatureAt_pair hi hj (List.mem_range.1 hk) h

/-! ### The encoder is linear -/

theorem encodeData_xor (n : Nat) (d e : Word) : encodeData n (d ^^^ e) = encodeData n d ^^^ encodeData n e := by
  induction n with
  | zero => simp [encodeData]
  | succ n ih =>
    simp only [encodeData, ih, BitVec.getLsbD_xor]
    have swap : ∀ x y z : Check, x ^^^ y ^^^ z = x ^^^ z ^^^ y := fun x y z => by
      rw [BitVec.xor_assoc, BitVec.xor_comm y, BitVec.xor_assoc]
    have cancel : ∀ x y z : Check, x ^^^ z ^^^ (y ^^^ z) = x ^^^ y := fun x y z => by
      rw [BitVec.xor_comm y, BitVec.xor_assoc, ← BitVec.xor_assoc z, BitVec.xor_self, BitVec.zero_xor]
    cases d.getLsbD n <;> cases e.getLsbD n <;> simp [cancel]
    · rw [BitVec.xor_assoc]
    · exact swap _ _ _

theorem encodeData_single {n i : Nat} (hi : i < 32) :
    encodeData n (1#32 <<< i) = if i < n then dataSignature i else 0 := by
  induction n with
  | zero => simp [encodeData]
  | succ n ih =>
    rw [encodeData, ih]
    by_cases h : n = i
    · subst h
      simp [hi]
    · by_cases h2 : i < n
      · have : ¬ n < i := by omega
        have hz : ¬ n - i = 0 := by omega
        simp [h2, show i < n + 1 by omega, hz]
      · have : n < i := by omega
        simp [h2, show ¬ i < n + 1 by omega, this]

/-- R2, R201: a zero word with tag 0 has check bits 0, the poisoned form 0x35. -/
theorem encode_zero (tag : Bool) : encode 0 tag = if tag then 0x35 else 0 := by
  have : encodeData 32 (0 : Word) = 0 := by
    have := encodeData_xor 32 (0 : Word) 0
    simpa using this
  simp only [encode, this]
  cases tag <;> rfl

/-! ### A flipped bit -/

theorem syndrome_flipBit (c : Codeword) {i : Nat} (h : i < 40) :
    syndrome (flipBit c i) = syndrome c ^^^ signatureAt i := by
  unfold flipBit signatureAt
  by_cases h1 : i < 32
  · simp only [h1, if_true, syndrome, encode, encodeData_xor, encodeData_single h1]
    simp only [BitVec.xor_assoc]
    congr 1
    rw [BitVec.xor_comm, BitVec.xor_assoc]
  · by_cases h2 : i = 32
    · subst h2
      cases ht : c.tag <;>
        simp [syndrome, encode, ht, BitVec.xor_assoc, BitVec.xor_comm c.check tagSignature]
    · simp only [h1, h2, if_false, syndrome, checkSignature, BitVec.xor_assoc]

theorem flipBit_flipBit (c : Codeword) (i : Nat) : flipBit (flipBit c i) i = c := by
  unfold flipBit
  by_cases h1 : i < 32
  · simp [h1]
  · by_cases h2 : i = 32
    · simp [h2]
    · simp [h1, h2]

/-- A codeword with the encoder's check bits has syndrome 0. -/
theorem syndrome_of_valid {c : Codeword} (h : validCodeword c) : syndrome c = 0 := by
  rw [syndrome, show c.check = encode c.data c.tag from h]
  simp

end Sys2Proof.Machine
end

