-- ==== Sys2Proof/Laws/Engines.lean ====
section
/-! SUPPORT. What the engines behind the port can do: the block map, the commit unit, the fault table, the migration and
scrub engines, the event queue and the command engine never touch the pins, the array, the channels, the port, the host
port, the settings of other blocks, the device state or the queue of commands. One lemma per operation. -/

namespace Sys2Proof.Machine

/-- `t` differs from `s` only in the map, the commit unit, the fault table, the migration and scrub engines, the mount
reader and the filler, events, CMD_DONE, DIR_READONLY, the command engine and the count of free choices. -/
structure OnlyEngines (s t : State) : Prop where
  pins : t.pins = s.pins
  pCode : t.pCode = s.pCode
  array : t.array = s.array
  chans : t.chans = s.chans
  nextPos : t.nextPos = s.nextPos
  port : t.port = s.port
  spareCtrl : t.spareCtrl = s.spareCtrl
  enable : t.irq.enable = s.irq.enable
  state : t.dev.state = s.dev.state
  inReset : t.dev.inReset = s.dev.inReset
  diag : t.diag = s.diag
  host : t.host = s.host
  table : t.table = s.table
  pending : t.pending = s.pending

namespace OnlyEngines

theorem refl (s : State) : OnlyEngines s s := by constructor <;> rfl

theorem trans {s t u : State} (h : OnlyEngines s t) (k : OnlyEngines t u) : OnlyEngines s u := by
  constructor <;> first
    | exact k.pins.trans h.pins
    | exact k.pCode.trans h.pCode
    | exact k.array.trans h.array
    | exact k.chans.trans h.chans
    | exact k.nextPos.trans h.nextPos
    | exact k.port.trans h.port
    | exact k.spareCtrl.trans h.spareCtrl
    | exact k.enable.trans h.enable
    | exact k.state.trans h.state
    | exact k.inReset.trans h.inReset
    | exact k.diag.trans h.diag
    | exact k.host.trans h.host
    | exact k.table.trans h.table
    | exact k.pending.trans h.pending

variable (s : State)

/-! ### Single updates -/

theorem setSpare (k : Nat) (st : SpareState) : OnlyEngines s (s.setSpare k st) := by constructor <;> rfl
theorem post (r : EventRecord) : OnlyEngines s (s.post r) := by constructor <;> rfl
theorem complete (r : Result) : OnlyEngines s (s.complete r) := by constructor <;> rfl
theorem clearTicks : OnlyEngines s s.clearTicks := by constructor <;> rfl
theorem setReadonly : OnlyEngines s s.setReadonly := by constructor <;> rfl
theorem commitIdle : OnlyEngines s s.commitIdle := by constructor <;> rfl
theorem mapActivate (m : Migration) : OnlyEngines s (s.mapActivate m) := by constructor <;> rfl
theorem dropScrubGrant : OnlyEngines s s.dropScrubGrant := by constructor <;> rfl
theorem begin (r : Running) : OnlyEngines s (s.begin r) := by constructor <;> rfl
theorem startRange (f l : Block) : OnlyEngines s (s.startRange f l) := by constructor <;> rfl
theorem openCommand (v : Half) : OnlyEngines s (s.openCommand v) := by constructor <;> rfl
theorem setMig (m : MigEngine) : OnlyEngines s { s with mig := m } := by constructor <;> rfl
theorem setDir (d : CommitUnit) : OnlyEngines s { s with dir := d } := by constructor <;> rfl
theorem setMap (m : BlockMap) : OnlyEngines s { s with map := m } := by constructor <;> rfl
theorem setFaults (t : FaultTable) : OnlyEngines s { s with faults := t } := by constructor <;> rfl
theorem setScrub (c : Scrub) : OnlyEngines s { s with scrub := c } := by constructor <;> rfl
theorem setCmd (c : CommandEngine) : OnlyEngines s { s with cmd := c } := by constructor <;> rfl
theorem setMount (m : MountReader) : OnlyEngines s { s with mount := m } := by constructor <;> rfl
theorem setFiller (f : Option Filler) : OnlyEngines s { s with filler := f } := by constructor <;> rfl
theorem setChoices (n : Nat) : OnlyEngines s { s with choices := n } := by constructor <;> rfl

/-! ### Commands and commits told -/

theorem tellCommitSuccess : OnlyEngines s s.tellCommitSuccess := by
  unfold State.tellCommitSuccess
  split
  · exact complete s _
  · exact refl s

theorem tellCommitFailure : OnlyEngines s s.tellCommitFailure := by
  unfold State.tellCommitFailure
  split
  · exact complete s _
  · exact refl s

/-! ### The fault table's notices -/

theorem notice (b : Block) (l : List FaultState) (st : FaultState) : OnlyEngines s (s.notice b l st) := by
  unfold State.notice
  split
  · split
    · exact setFaults s _
    · exact refl s
  · exact refl s

theorem startNotice (b : Block) : OnlyEngines s (s.startNotice b) := by
  unfold State.startNotice
  split
  · exact notice s _ _ _
  · split
    · exact setFaults s _
    · exact refl s

/-! ### The migration engine -/

theorem startWith (lam : Block) (k : Nat) : OnlyEngines s (s.startWith lam k) := by
  unfold State.startWith
  exact ((setSpare s k _).trans (setMig _ _)).trans (startNotice _ _)

theorem endNoSpare (lam : Block) : OnlyEngines s (s.endNoSpare lam) :=
  (notice s _ _ _).trans (post _ _)

theorem startFrom (l : List MigRequest) : OnlyEngines s (startFrom l s) := by
  induction l generalizing s with
  | nil => exact setMig s _
  | cons r rest ih =>
    rw [Machine.startFrom]
    split
    · exact (setMig s _).trans (startWith _ _ _)
    · exact (endNoSpare s _).trans (ih _)

theorem tryStart : OnlyEngines s s.tryStart := by
  unfold State.tryStart
  split
  · exact startFrom s _
  · exact refl s

theorem requestMigration (lam : Block) (o : Origin) : OnlyEngines s (s.requestMigration lam o) := by
  unfold State.requestMigration
  split
  · exact ((setMig s _).trans (notice _ _ _ _)).trans (tryStart _)
  · exact refl s

theorem release (k : Nat) : OnlyEngines s (s.release k) := by
  unfold State.release
  split
  · exact setSpare s _ _
  · exact refl s

theorem abandon (m : Migration) (r : AbandonReason) : OnlyEngines s (s.abandon m r) := by
  unfold State.abandon
  refine (((OnlyEngines.trans ?_ (notice _ _ _ _)).trans (post _ _)).trans (setMig _ _)).trans (tryStart _)
  split
  · exact release s _
  · exact release s _
  · exact refl s
  · exact refl s

theorem abandonWaiting : OnlyEngines s s.abandonWaiting := by
  unfold State.abandonWaiting
  split
  · split
    · exact abandon s _ _
    · exact refl s
  · exact refl s

theorem cancelMigration (lam : Block) : OnlyEngines s (s.cancelMigration lam) := by
  unfold State.cancelMigration
  split
  · exact (setMig s _).trans (notice _ _ _ _)
  · split
    · split
      · exact abandon s _ _
      · exact refl s
    · exact refl s

theorem softResetMigration : OnlyEngines s s.softResetMigration := by
  unfold State.softResetMigration
  split
  · split
    · exact setMig s _
    · exact ((setMig s _).trans (release _ _)).trans (setMig _ _)
  · exact setMig s _

/-! ### The commit unit -/

theorem failCommit (r : EventRecord) : OnlyEngines s (s.failCommit r) :=
  (((((setReadonly s).trans (post _ r)).trans (abandonWaiting _)).trans (setDir _ _)).trans
    (tellCommitFailure _)).trans (commitIdle _)

theorem startCommit : OnlyEngines s s.startCommit := by
  unfold State.startCommit
  split
  · exact failCommit s _
  · exact setDir s _

theorem requestCommit : OnlyEngines s s.requestCommit := by
  unfold State.requestCommit
  split
  · split
    · exact refl s
    · exact startCommit s
  · exact setDir s _

theorem attemptFailed : OnlyEngines s s.attemptFailed := by
  unfold State.attemptFailed
  split
  · exact setDir s _
  · exact failCommit s _

theorem dirFinding (c : Copy) : OnlyEngines s (s.dirFinding c) := by
  unfold State.dirFinding
  split
  · dsimp only
    split
    · exact setDir s _
    · exact (setDir s _).trans (requestCommit _)
  · exact refl s

theorem markCondemned (k : Nat) (src : Source) : OnlyEngines s (s.markCondemned k src) :=
  (setSpare s _ _).trans (post _ _)

theorem condemn (k : Nat) (st : SpareState) (src : Source) : OnlyEngines s (s.condemn k st src) := by
  unfold State.condemn
  split
  · exact (markCondemned s _ _).trans (requestCommit _)
  · exact refl s

theorem activate (m : Migration) : OnlyEngines s (s.activate m) := by
  unfold State.activate
  dsimp only
  split
  · split
    · exact ((mapActivate s m).trans (markCondemned _ _ _)).trans (setDir _ _)
    · exact mapActivate s m
  · exact mapActivate s m

theorem completeMigration (m : Migration) : OnlyEngines s (s.completeMigration m) :=
  ((((activate s m).trans (notice _ _ _ _)).trans (post _ _)).trans (setMig _ _)).trans (tryStart _)

theorem completeIncluded : OnlyEngines s s.completeIncluded := by
  unfold State.completeIncluded
  split
  · split
    · exact completeMigration s _
    · exact refl s
  · exact refl s

theorem recordCommit : OnlyEngines s s.recordCommit := by
  unfold State.recordCommit
  split
  · exact setDir s _
  · exact setDir s _

theorem postCommitDone : OnlyEngines s s.postCommitDone := by
  unfold State.postCommitDone
  split
  · exact post s _
  · exact refl s

theorem advanceWait : OnlyEngines s s.advanceWait := by
  unfold State.advanceWait
  split
  · exact setCmd s _
  · exact refl s

theorem nextCommit : OnlyEngines s s.nextCommit := by
  unfold State.nextCommit
  split
  · exact ((advanceWait s).trans (setDir _ _)).trans (startCommit _)
  · exact commitIdle s

theorem commitSuccess : OnlyEngines s s.commitSuccess :=
  ((((recordCommit s).trans (postCommitDone _)).trans (completeIncluded _)).trans (tellCommitSuccess _)).trans
    (nextCommit _)

theorem dirWritten : OnlyEngines s s.dirWritten := by
  unfold State.dirWritten
  split <;> exact setDir s _

theorem dirReadBack (r : DecodeResult) : OnlyEngines s (s.dirReadBack r) := by
  unfold State.dirReadBack
  split
  · split <;> exact setDir s _
  · exact attemptFailed s

/-! ### Free orders and reports -/

theorem eitherWay {f g : State → State} (hf : ∀ x, OnlyEngines x (f x)) (hg : ∀ x, OnlyEngines x (g x)) :
    OnlyEngines s (s.eitherWay f g) := by
  unfold State.eitherWay
  dsimp only
  split
  · exact ((setChoices s _).trans (hf _)).trans (hg _)
  · exact ((setChoices s _).trans (hg _)).trans (hf _)

theorem testRecord (b : Block) : OnlyEngines s (s.testRecord b) := by
  unfold State.testRecord
  split
  · exact refl s
  · split
    · exact refl s
    · split
      · split
        · exact requestMigration s _ _
        · exact refl s
      · split
        · split
          · exact condemn s _ _ _
          · exact refl s
        · exact refl s

theorem postCorrected (rep : Report) (l : Option Block) (d : Half) : OnlyEngines s (s.postCorrected rep l d) := by
  unfold State.postCorrected
  split
  · exact post s _
  · exact refl s

theorem untrackedReport (rep : Report) : OnlyEngines s (s.untrackedReport rep) := by
  unfold State.untrackedReport
  dsimp only
  split
  · exact (setFaults s _).trans (postCorrected _ _ _ _)
  · exact ((setFaults s _).trans (post _ _)).trans (postCorrected _ _ _ _)

theorem takeReport (rep : Report) : OnlyEngines s (s.takeReport rep) := by
  unfold State.takeReport
  split
  · exact untrackedReport s _
  · dsimp only
    split
    · exact (setFaults s _).trans (eitherWay _ (fun x => postCorrected x _ _ _) fun x => testRecord x _)
    · exact (setFaults s _).trans (testRecord _ _)

theorem foldl {fs : List (State → State)} (h : ∀ f ∈ fs, ∀ x, OnlyEngines x (f x)) :
    OnlyEngines s (fs.foldl (fun x g => g x) s) := by
  induction fs generalizing s with
  | nil => exact refl s
  | cons f rest ih =>
    exact (h f (by simp) s).trans (ih _ fun g hg => h g (List.mem_cons_of_mem _ hg))

theorem insertReport (rep : Report) {fs : List (State → State)} (h : ∀ f ∈ fs, ∀ x, OnlyEngines x (f x)) :
    OnlyEngines s (insertReport rep fs s) := by
  induction fs generalizing s with
  | nil => exact takeReport s rep
  | cons f rest ih =>
    have hr : ∀ g ∈ rest, ∀ x, OnlyEngines x (g x) := fun g hg => h g (List.mem_cons_of_mem _ hg)
    rw [Machine.insertReport]
    split
    · exact (((setChoices s _).trans (takeReport _ _)).trans (h f (by simp) _)).trans (foldl _ hr)
    · exact ((setChoices s _).trans (h f (by simp) _)).trans (ih _ hr)

theorem withReport (rep : Option Report) {f : State → State} (hf : ∀ x, OnlyEngines x (f x)) :
    OnlyEngines s (s.withReport rep f) := by
  unfold State.withReport
  split
  · exact hf s
  · exact eitherWay s (fun x => takeReport x _) hf

theorem reportOnly (rep : Option Report) : OnlyEngines s (s.reportOnly rep) := by
  unfold State.reportOnly
  split
  · exact takeReport s _
  · exact refl s

/-! ### The scrub engine -/

theorem completeSlice : OnlyEngines s s.completeSlice := by
  unfold State.completeSlice
  dsimp only
  split
  · split
    · exact ((setScrub s _).trans (setScrub _ _)).trans (post _ _)
    · exact (setScrub s _).trans (setScrub _ _)
  · exact setScrub s _

theorem skipSlices (n : Nat) : OnlyEngines s (skipSlices n s) := by
  induction n generalizing s with
  | zero => exact refl s
  | succ n ih =>
    rw [Machine.skipSlices]
    split
    · exact (completeSlice s).trans (ih _)
    · exact refl s

theorem endRange : OnlyEngines s s.endRange := by
  unfold State.endRange
  dsimp only
  split
  · exact (setScrub s _).trans (complete _ _)
  · exact setScrub s _

theorem advanceRange (r : RangeRun) (a : Addr) : OnlyEngines s (s.advanceRange r a) := by
  unfold State.advanceRange
  split
  · exact endRange s
  · exact setScrub s _

theorem skipBlocks (n : Nat) : OnlyEngines s (skipBlocks n s) := by
  induction n generalizing s with
  | zero => exact refl s
  | succ n ih =>
    rw [Machine.skipBlocks]
    split
    · exact refl s
    · split
      · exact (advanceRange s _ _).trans (ih _)
      · exact refl s

theorem scrubSettle : OnlyEngines s s.scrubSettle := by
  unfold State.scrubSettle
  split
  · exact refl s
  · exact (skipBlocks s _).trans (skipSlices _ _)

theorem offerCredit : OnlyEngines s s.offerCredit := by
  unfold State.offerCredit
  dsimp only
  split
  · split
    · exact setScrub s _
    · exact (setScrub s _).trans (post _ _)
  · exact setScrub s _

theorem timerExpires : OnlyEngines s s.timerExpires :=
  ((clearTicks s).trans (offerCredit _)).trans (scrubSettle _)

theorem scrubCount (a : Addr) (r : DecodeResult) (w : Bool) : OnlyEngines s (s.scrubCount a r w) := by
  unfold State.scrubCount
  split
  · exact setScrub s _
  · exact post s _
  · exact refl s

theorem scrubHandOff (a : Addr) (r : DecodeResult) : OnlyEngines s (s.scrubHandOff a r) := by
  unfold State.scrubHandOff
  split
  · exact refl s
  · split
    · exact condemn s _ _ _
    · exact dirFinding s _
    · exact dirFinding s _
    · exact refl s

theorem scrubProgress (a : Addr) (range : Bool) : OnlyEngines s (s.scrubProgress a range) := by
  unfold State.scrubProgress
  split
  · split
    · exact advanceRange s _ _
    · exact refl s
  · split
    · exact completeSlice s
    · exact setScrub s _

theorem scrubResult (a : Addr) (range w : Bool) (r : DecodeResult) : OnlyEngines s (s.scrubResult a range w r) := by
  unfold State.scrubResult
  split
  · apply insertReport
    intro f hf x
    simp only [List.mem_cons, List.not_mem_nil, or_false] at hf
    rcases hf with rfl | rfl | rfl
    · exact scrubCount x _ _ _
    · exact scrubHandOff x _ _
    · exact scrubProgress x _ _
  · exact ((scrubCount s _ _ _).trans (scrubHandOff _ _ _)).trans (scrubProgress _ _ _)

/-! ### The migration engine's grants -/

theorem copyResult (src : Addr) (k : Nat) (r : DecodeResult) : OnlyEngines s (s.copyResult src k r) := by
  unfold State.copyResult
  split
  · split
    · dsimp only
      split
      · exact (setMig s _).trans (post _ _)
      · exact setMig s _
    · exact refl s
  · exact refl s

theorem retryMigration (m : Migration) (k : Nat) : OnlyEngines s (s.retryMigration m k) :=
  ((setSpare s _ _).trans (setMig _ _)).trans (post _ _)

theorem verifyFailed (m : Migration) : OnlyEngines s (s.verifyFailed m) := by
  unfold State.verifyFailed
  dsimp only
  split
  · split
    · exact (condemn s _ _ _).trans (retryMigration _ _ _)
    · exact (condemn s _ _ _).trans (abandon _ _ _)
  · exact (condemn s _ _ _).trans (abandon _ _ _)

theorem enterCommitWait (m : Migration) : OnlyEngines s (s.enterCommitWait m) := by
  unfold State.enterCommitWait
  dsimp only
  split
  · exact (setMig s _).trans (abandonWaiting _)
  · exact (setMig s _).trans (requestCommit _)

theorem verifyResult (k : Nat) (r : DecodeResult) : OnlyEngines s (s.verifyResult k r) := by
  unfold State.verifyResult
  split
  · split
    · split
      · split
        · exact setMig s _
        · exact enterCommitWait s _
      · exact verifyFailed s _
    · exact refl s
  · exact refl s

theorem mirrorMark (m : Option Mirror) : OnlyEngines s (s.mirrorMark m) := by
  unfold State.mirrorMark
  split
  · split
    · exact setMig s _
    · exact refl s
  · exact refl s

end OnlyEngines

end Sys2Proof.Machine
end

