-- ==== Sys2Proof/Laws/Memory.lean ====
section
/-! SUPPORT. The array: its canonical form, reading after writing, and the operations of the state that write it. -/

namespace Sys2Proof.Machine

/-- The canonical form in words: addresses strictly rising, no blank location listed. -/
theorem CellArray.wf_iff (l : CellArray) :
    l.wf = true ↔ (l.map Prod.fst).Pairwise (· < ·) ∧ ∀ x ∈ l, x.2 ≠ blank := by
  induction l with
  | nil => simp [CellArray.wf]
  | cons x rest ih =>
    obtain ⟨k, c⟩ := x
    cases rest with
    | nil => simp [CellArray.wf]
    | cons y rest' =>
      obtain ⟨k', c'⟩ := y
      simp only [CellArray.wf, Bool.and_eq_true, decide_eq_true_eq, ih]
      constructor
      · rintro ⟨⟨hc, hk⟩, hp, hb⟩
        refine ⟨?_, ?_⟩
        · simp only [List.map_cons, List.pairwise_cons] at hp ⊢
          refine ⟨?_, hp⟩
          intro a ha
          rcases List.mem_cons.1 ha with rfl | ha
          · exact hk
          · exact lt_trans hk (hp.1 a ha)
        · intro x hx
          rcases List.mem_cons.1 hx with rfl | hx
          · exact hc
          · exact hb x hx
      · rintro ⟨hp, hb⟩
        simp only [List.map_cons, List.pairwise_cons] at hp
        exact ⟨⟨hb (k, c) (by simp), hp.1 k' (by simp)⟩, by simpa using hp.2, fun x hx => hb x (List.mem_cons_of_mem _ hx)⟩

theorem CellArray.wf_tail {x : Nat × Codeword} {l : CellArray} (h : CellArray.wf (x :: l) = true) :
    CellArray.wf l = true := by
  rw [CellArray.wf_iff] at h ⊢
  exact ⟨(List.pairwise_cons.1 (by simpa using h.1)).2, fun y hy => h.2 y (List.mem_cons_of_mem _ hy)⟩

/-- An address below every listed one reads as blank. -/
theorem CellArray.get_of_lt {l : CellArray} {a : Nat} (h : ∀ x ∈ l, a < x.1) : l.get a = blank := by
  induction l with
  | nil => rfl
  | cons x rest ih =>
    obtain ⟨k, c⟩ := x
    have hk : a < k := h (k, c) (by simp)
    rw [CellArray.get, if_neg (Nat.ne_of_lt hk)]
    exact ih fun y hy => h y (List.mem_cons_of_mem _ hy)

/-- What a put lists: the written location, or one listed before. -/
theorem CellArray.mem_put {l : CellArray} {a : Nat} {c : Codeword} {x : Nat × Codeword} (h : x ∈ l.put a c) :
    x ∈ l ∨ (x = (a, c) ∧ c ≠ blank) := by
  induction l with
  | nil =>
    rw [CellArray.put] at h
    split at h
    · simp at h
    · exact .inr ⟨by simpa using h, ‹_›⟩
  | cons y rest ih =>
    obtain ⟨k, d⟩ := y
    rw [CellArray.put] at h
    split at h
    · split at h
      · exact .inl h
      · rcases List.mem_cons.1 h with rfl | h
        · exact .inr ⟨rfl, ‹_›⟩
        · exact .inl h
    · split at h
      · split at h
        · exact .inl (List.mem_cons_of_mem _ h)
        · rcases List.mem_cons.1 h with rfl | h
          · exact .inr ⟨rfl, ‹_›⟩
          · exact .inl (List.mem_cons_of_mem _ h)
      · rcases List.mem_cons.1 h with rfl | h
        · exact .inl (by simp)
        · rcases ih h with h | h
          · exact .inl (List.mem_cons_of_mem _ h)
          · exact .inr h

/-- A write keeps the canonical form. -/
theorem CellArray.wf_put {l : CellArray} (h : l.wf = true) (a : Nat) (c : Codeword) : (l.put a c).wf = true := by
  induction l with
  | nil =>
    rw [CellArray.put]
    split
    · rfl
    · simpa [CellArray.wf] using ‹_›
  | cons x rest ih =>
    obtain ⟨k, d⟩ := x
    have ht := CellArray.wf_tail h
    rw [CellArray.wf_iff] at h
    have hp := List.pairwise_cons.1 (show (k :: rest.map Prod.fst).Pairwise (· < ·) by simpa using h.1)
    rw [CellArray.put]
    split
    · split
      · exact (CellArray.wf_iff _).2 h
      · rw [CellArray.wf_iff]
        refine ⟨?_, ?_⟩
        · simp only [List.map_cons, List.pairwise_cons]
          refine ⟨?_, hp⟩
          intro b hb
          rcases List.mem_cons.1 hb with rfl | hb
          · assumption
          · exact lt_trans ‹_› (hp.1 b hb)
        · intro y hy
          rcases List.mem_cons.1 hy with rfl | hy
          · assumption
          · exact h.2 y hy
    · split
      · split
        · exact ht
        · rw [CellArray.wf_iff]
          refine ⟨?_, ?_⟩
          · simp only [List.map_cons, List.pairwise_cons]
            exact ⟨fun b hb => by subst_vars; exact hp.1 b hb, hp.2⟩
          · intro y hy
            rcases List.mem_cons.1 hy with rfl | hy
            · assumption
            · exact h.2 y (List.mem_cons_of_mem _ hy)
      · have hw := (CellArray.wf_iff _).1 (ih ht)
        rw [CellArray.wf_iff]
        refine ⟨?_, ?_⟩
        · simp only [List.map_cons, List.pairwise_cons]
          refine ⟨?_, hw.1⟩
          intro b hb
          obtain ⟨y, hy, rfl⟩ := List.mem_map.1 hb
          rcases CellArray.mem_put hy with hy | ⟨rfl, -⟩
          · exact hp.1 _ (List.mem_map_of_mem hy)
          · show k < a
            omega
        · intro y hy
          rcases List.mem_cons.1 hy with rfl | hy
          · exact h.2 _ (by simp)
          · exact hw.2 y hy

/-- Reading after writing: the written location gives the codeword written, every other one reads as before. -/
theorem CellArray.get_put {l : CellArray} (h : l.wf = true) (a b : Nat) (c : Codeword) :
    (l.put a c).get b = if b = a then c else l.get b := by
  induction l with
  | nil =>
    rw [CellArray.put]
    split
    · simp_all [CellArray.get]
    · rfl
  | cons x rest ih =>
    obtain ⟨k, d⟩ := x
    have ht := CellArray.wf_tail h
    rw [CellArray.wf_iff] at h
    have hp := List.pairwise_cons.1 (show (k :: rest.map Prod.fst).Pairwise (· < ·) by simpa using h.1)
    have hlow : ∀ e, e < k → CellArray.get ((k, d) :: rest) e = blank := fun e he =>
      CellArray.get_of_lt fun y hy => by
        rcases List.mem_cons.1 hy with rfl | hy
        · exact he
        · exact lt_trans he (hp.1 _ (List.mem_map_of_mem hy))
    have hself : CellArray.get rest k = blank :=
      CellArray.get_of_lt fun y hy => hp.1 _ (List.mem_map_of_mem hy)
    rw [CellArray.put]
    split
    · split
      · by_cases hb : b = a
        · subst hb; simp_all
        · simp [hb]
      · rfl
    · split
      · subst_vars
        split
        · by_cases hb : b = k
          · subst hb; simp_all
          · simp [hb, CellArray.get]
        · by_cases hb : b = k <;> simp [hb, CellArray.get]
      · have hka : k ≠ a := by omega
        simp only [CellArray.get, ih ht]
        by_cases hb : b = k
        · simp [hb, hka]
        · simp [hb]

/-- The array right after reset is in canonical form. -/
theorem reset_array_wf : State.reset.array.wf = true := rfl

/-- Writing a location of the state keeps the canonical form. -/
theorem State.writeCell_wf {s : State} (h : s.array.wf = true) (a : Addr) (c : Codeword) :
    (s.writeCell a c).array.wf = true := CellArray.wf_put h _ _

/-- Writing the mirror address keeps the canonical form. -/
theorem State.writeMirror_wf {s : State} (h : s.array.wf = true) (m : Option Mirror) (c : Codeword) :
    (s.writeMirror m c).array.wf = true := by
  cases m with
  | none => exact h
  | some mi => exact State.writeCell_wf h _ _

/-- What the array holds at an address after a location is written. -/
theorem State.writeCell_cell {s : State} (h : s.array.wf = true) (a b : Addr) (c : Codeword) :
    (s.writeCell a c).cell b = if s.maOf b = s.maOf a then c else s.cell b := by
  have hm : (s.writeCell a c).maOf b = s.maOf b := rfl
  simp only [State.cell, hm]
  rw [show (s.writeCell a c).array = s.array.put (s.maOf a).toNat c from rfl, CellArray.get_put h]
  simp [BitVec.toNat_inj]

end Sys2Proof.Machine
end

