-- ==== Sys2Proof/Laws/State.lean ====
section
/-! SUPPORT. One lemma per field per update: what an update of the state writes, and that it leaves every other field. -/

namespace Sys2Proof.Machine

variable (s : State)

/-! ### noteRead -/

@[simp] theorem State.noteRead_pins (a : Addr) : (s.noteRead a).pins = s.pins := rfl
@[simp] theorem State.noteRead_pCode (a : Addr) : (s.noteRead a).pCode = s.pCode := rfl
@[simp] theorem State.noteRead_array (a : Addr) : (s.noteRead a).array = s.array := rfl
@[simp] theorem State.noteRead_map (a : Addr) : (s.noteRead a).map = s.map := rfl
@[simp] theorem State.noteRead_dir (a : Addr) : (s.noteRead a).dir = s.dir := rfl
@[simp] theorem State.noteRead_mount (a : Addr) : (s.noteRead a).mount = s.mount := rfl
@[simp] theorem State.noteRead_filler (a : Addr) : (s.noteRead a).filler = s.filler := rfl
@[simp] theorem State.noteRead_chans (a : Addr) : (s.noteRead a).chans = s.chans := rfl
@[simp] theorem State.noteRead_nextPos (a : Addr) : (s.noteRead a).nextPos = s.nextPos := rfl
@[simp] theorem State.noteRead_port (a : Addr) :
    (s.noteRead a).port = { s.port with accesses := s.port.accesses ++ [.read (s.maOf a)] } := rfl
@[simp] theorem State.noteRead_scrub (a : Addr) : (s.noteRead a).scrub = s.scrub := rfl
@[simp] theorem State.noteRead_faults (a : Addr) : (s.noteRead a).faults = s.faults := rfl
@[simp] theorem State.noteRead_spareCtrl (a : Addr) : (s.noteRead a).spareCtrl = s.spareCtrl := rfl
@[simp] theorem State.noteRead_mig (a : Addr) : (s.noteRead a).mig = s.mig := rfl
@[simp] theorem State.noteRead_events (a : Addr) : (s.noteRead a).events = s.events := rfl
@[simp] theorem State.noteRead_irq (a : Addr) : (s.noteRead a).irq = s.irq := rfl
@[simp] theorem State.noteRead_dev (a : Addr) : (s.noteRead a).dev = s.dev := rfl
@[simp] theorem State.noteRead_diag (a : Addr) : (s.noteRead a).diag = s.diag := rfl
@[simp] theorem State.noteRead_cmd (a : Addr) : (s.noteRead a).cmd = s.cmd := rfl
@[simp] theorem State.noteRead_host (a : Addr) : (s.noteRead a).host = s.host := rfl
@[simp] theorem State.noteRead_table (a : Addr) : (s.noteRead a).table = s.table := rfl
@[simp] theorem State.noteRead_choices (a : Addr) : (s.noteRead a).choices = s.choices := rfl
@[simp] theorem State.noteRead_pending (a : Addr) : (s.noteRead a).pending = s.pending := rfl

/-! ### writeCell -/

@[simp] theorem State.writeCell_pins (a : Addr) (c : Codeword) : (s.writeCell a c).pins = s.pins := rfl
@[simp] theorem State.writeCell_pCode (a : Addr) (c : Codeword) : (s.writeCell a c).pCode = s.pCode := rfl
@[simp] theorem State.writeCell_array (a : Addr) (c : Codeword) :
    (s.writeCell a c).array = s.array.put (s.maOf a).toNat c := rfl
@[simp] theorem State.writeCell_map (a : Addr) (c : Codeword) : (s.writeCell a c).map = s.map := rfl
@[simp] theorem State.writeCell_dir (a : Addr) (c : Codeword) : (s.writeCell a c).dir = s.dir := rfl
@[simp] theorem State.writeCell_mount (a : Addr) (c : Codeword) : (s.writeCell a c).mount = s.mount := rfl
@[simp] theorem State.writeCell_filler (a : Addr) (c : Codeword) : (s.writeCell a c).filler = s.filler := rfl
@[simp] theorem State.writeCell_chans (a : Addr) (c : Codeword) : (s.writeCell a c).chans = s.chans := rfl
@[simp] theorem State.writeCell_nextPos (a : Addr) (c : Codeword) : (s.writeCell a c).nextPos = s.nextPos := rfl
@[simp] theorem State.writeCell_port (a : Addr) (c : Codeword) :
    (s.writeCell a c).port = { s.port with accesses := s.port.accesses ++ [.write (s.maOf a) c] } := rfl
@[simp] theorem State.writeCell_scrub (a : Addr) (c : Codeword) : (s.writeCell a c).scrub = s.scrub := rfl
@[simp] theorem State.writeCell_faults (a : Addr) (c : Codeword) : (s.writeCell a c).faults = s.faults := rfl
@[simp] theorem State.writeCell_spareCtrl (a : Addr) (c : Codeword) : (s.writeCell a c).spareCtrl = s.spareCtrl := rfl
@[simp] theorem State.writeCell_mig (a : Addr) (c : Codeword) : (s.writeCell a c).mig = s.mig := rfl
@[simp] theorem State.writeCell_events (a : Addr) (c : Codeword) : (s.writeCell a c).events = s.events := rfl
@[simp] theorem State.writeCell_irq (a : Addr) (c : Codeword) : (s.writeCell a c).irq = s.irq := rfl
@[simp] theorem State.writeCell_dev (a : Addr) (c : Codeword) : (s.writeCell a c).dev = s.dev := rfl
@[simp] theorem State.writeCell_diag (a : Addr) (c : Codeword) : (s.writeCell a c).diag = s.diag := rfl
@[simp] theorem State.writeCell_cmd (a : Addr) (c : Codeword) : (s.writeCell a c).cmd = s.cmd := rfl
@[simp] theorem State.writeCell_host (a : Addr) (c : Codeword) : (s.writeCell a c).host = s.host := rfl
@[simp] theorem State.writeCell_table (a : Addr) (c : Codeword) : (s.writeCell a c).table = s.table := rfl
@[simp] theorem State.writeCell_choices (a : Addr) (c : Codeword) : (s.writeCell a c).choices = s.choices := rfl
@[simp] theorem State.writeCell_pending (a : Addr) (c : Codeword) : (s.writeCell a c).pending = s.pending := rfl

/-! ### setChan -/

@[simp] theorem State.setChan_pins (n : Fin 4) (c : Channel) : (s.setChan n c).pins = s.pins := rfl
@[simp] theorem State.setChan_pCode (n : Fin 4) (c : Channel) : (s.setChan n c).pCode = s.pCode := rfl
@[simp] theorem State.setChan_array (n : Fin 4) (c : Channel) : (s.setChan n c).array = s.array := rfl
@[simp] theorem State.setChan_map (n : Fin 4) (c : Channel) : (s.setChan n c).map = s.map := rfl
@[simp] theorem State.setChan_dir (n : Fin 4) (c : Channel) : (s.setChan n c).dir = s.dir := rfl
@[simp] theorem State.setChan_mount (n : Fin 4) (c : Channel) : (s.setChan n c).mount = s.mount := rfl
@[simp] theorem State.setChan_filler (n : Fin 4) (c : Channel) : (s.setChan n c).filler = s.filler := rfl
@[simp] theorem State.setChan_chans (n : Fin 4) (c : Channel) : (s.setChan n c).chans = s.chans.set n c := rfl
@[simp] theorem State.setChan_nextPos (n : Fin 4) (c : Channel) : (s.setChan n c).nextPos = s.nextPos := rfl
@[simp] theorem State.setChan_port (n : Fin 4) (c : Channel) : (s.setChan n c).port = s.port := rfl
@[simp] theorem State.setChan_scrub (n : Fin 4) (c : Channel) : (s.setChan n c).scrub = s.scrub := rfl
@[simp] theorem State.setChan_faults (n : Fin 4) (c : Channel) : (s.setChan n c).faults = s.faults := rfl
@[simp] theorem State.setChan_spareCtrl (n : Fin 4) (c : Channel) : (s.setChan n c).spareCtrl = s.spareCtrl := rfl
@[simp] theorem State.setChan_mig (n : Fin 4) (c : Channel) : (s.setChan n c).mig = s.mig := rfl
@[simp] theorem State.setChan_events (n : Fin 4) (c : Channel) : (s.setChan n c).events = s.events := rfl
@[simp] theorem State.setChan_irq (n : Fin 4) (c : Channel) : (s.setChan n c).irq = s.irq := rfl
@[simp] theorem State.setChan_dev (n : Fin 4) (c : Channel) : (s.setChan n c).dev = s.dev := rfl
@[simp] theorem State.setChan_diag (n : Fin 4) (c : Channel) : (s.setChan n c).diag = s.diag := rfl
@[simp] theorem State.setChan_cmd (n : Fin 4) (c : Channel) : (s.setChan n c).cmd = s.cmd := rfl
@[simp] theorem State.setChan_host (n : Fin 4) (c : Channel) : (s.setChan n c).host = s.host := rfl
@[simp] theorem State.setChan_table (n : Fin 4) (c : Channel) : (s.setChan n c).table = s.table := rfl
@[simp] theorem State.setChan_choices (n : Fin 4) (c : Channel) : (s.setChan n c).choices = s.choices := rfl
@[simp] theorem State.setChan_pending (n : Fin 4) (c : Channel) : (s.setChan n c).pending = s.pending := rfl

/-! ### setSpare -/

@[simp] theorem State.setSpare_pins (k : Nat) (st : SpareState) : (s.setSpare k st).pins = s.pins := rfl
@[simp] theorem State.setSpare_pCode (k : Nat) (st : SpareState) : (s.setSpare k st).pCode = s.pCode := rfl
@[simp] theorem State.setSpare_array (k : Nat) (st : SpareState) : (s.setSpare k st).array = s.array := rfl
@[simp] theorem State.setSpare_map (k : Nat) (st : SpareState) :
    (s.setSpare k st).map = { s.map with spares := s.map.spares.set k st } := rfl
@[simp] theorem State.setSpare_dir (k : Nat) (st : SpareState) : (s.setSpare k st).dir = s.dir := rfl
@[simp] theorem State.setSpare_mount (k : Nat) (st : SpareState) : (s.setSpare k st).mount = s.mount := rfl
@[simp] theorem State.setSpare_filler (k : Nat) (st : SpareState) : (s.setSpare k st).filler = s.filler := rfl
@[simp] theorem State.setSpare_chans (k : Nat) (st : SpareState) : (s.setSpare k st).chans = s.chans := rfl
@[simp] theorem State.setSpare_nextPos (k : Nat) (st : SpareState) : (s.setSpare k st).nextPos = s.nextPos := rfl
@[simp] theorem State.setSpare_port (k : Nat) (st : SpareState) : (s.setSpare k st).port = s.port := rfl
@[simp] theorem State.setSpare_scrub (k : Nat) (st : SpareState) : (s.setSpare k st).scrub = s.scrub := rfl
@[simp] theorem State.setSpare_faults (k : Nat) (st : SpareState) : (s.setSpare k st).faults = s.faults := rfl
@[simp] theorem State.setSpare_spareCtrl (k : Nat) (st : SpareState) : (s.setSpare k st).spareCtrl = s.spareCtrl := rfl
@[simp] theorem State.setSpare_mig (k : Nat) (st : SpareState) : (s.setSpare k st).mig = s.mig := rfl
@[simp] theorem State.setSpare_events (k : Nat) (st : SpareState) : (s.setSpare k st).events = s.events := rfl
@[simp] theorem State.setSpare_irq (k : Nat) (st : SpareState) : (s.setSpare k st).irq = s.irq := rfl
@[simp] theorem State.setSpare_dev (k : Nat) (st : SpareState) : (s.setSpare k st).dev = s.dev := rfl
@[simp] theorem State.setSpare_diag (k : Nat) (st : SpareState) : (s.setSpare k st).diag = s.diag := rfl
@[simp] theorem State.setSpare_cmd (k : Nat) (st : SpareState) : (s.setSpare k st).cmd = s.cmd := rfl
@[simp] theorem State.setSpare_host (k : Nat) (st : SpareState) : (s.setSpare k st).host = s.host := rfl
@[simp] theorem State.setSpare_table (k : Nat) (st : SpareState) : (s.setSpare k st).table = s.table := rfl
@[simp] theorem State.setSpare_choices (k : Nat) (st : SpareState) : (s.setSpare k st).choices = s.choices := rfl
@[simp] theorem State.setSpare_pending (k : Nat) (st : SpareState) : (s.setSpare k st).pending = s.pending := rfl

/-! ### post -/

@[simp] theorem State.post_pins (r : EventRecord) : (s.post r).pins = s.pins := rfl
@[simp] theorem State.post_pCode (r : EventRecord) : (s.post r).pCode = s.pCode := rfl
@[simp] theorem State.post_array (r : EventRecord) : (s.post r).array = s.array := rfl
@[simp] theorem State.post_map (r : EventRecord) : (s.post r).map = s.map := rfl
@[simp] theorem State.post_dir (r : EventRecord) : (s.post r).dir = s.dir := rfl
@[simp] theorem State.post_mount (r : EventRecord) : (s.post r).mount = s.mount := rfl
@[simp] theorem State.post_filler (r : EventRecord) : (s.post r).filler = s.filler := rfl
@[simp] theorem State.post_chans (r : EventRecord) : (s.post r).chans = s.chans := rfl
@[simp] theorem State.post_nextPos (r : EventRecord) : (s.post r).nextPos = s.nextPos := rfl
@[simp] theorem State.post_port (r : EventRecord) : (s.post r).port = s.port := rfl
@[simp] theorem State.post_scrub (r : EventRecord) : (s.post r).scrub = s.scrub := rfl
@[simp] theorem State.post_faults (r : EventRecord) : (s.post r).faults = s.faults := rfl
@[simp] theorem State.post_spareCtrl (r : EventRecord) : (s.post r).spareCtrl = s.spareCtrl := rfl
@[simp] theorem State.post_mig (r : EventRecord) : (s.post r).mig = s.mig := rfl
@[simp] theorem State.post_events (r : EventRecord) : (s.post r).events = s.events.offer r := rfl
@[simp] theorem State.post_irq (r : EventRecord) : (s.post r).irq = s.irq := rfl
@[simp] theorem State.post_dev (r : EventRecord) : (s.post r).dev = s.dev := rfl
@[simp] theorem State.post_diag (r : EventRecord) : (s.post r).diag = s.diag := rfl
@[simp] theorem State.post_cmd (r : EventRecord) : (s.post r).cmd = s.cmd := rfl
@[simp] theorem State.post_host (r : EventRecord) : (s.post r).host = s.host := rfl
@[simp] theorem State.post_table (r : EventRecord) : (s.post r).table = s.table := rfl
@[simp] theorem State.post_choices (r : EventRecord) : (s.post r).choices = s.choices := rfl
@[simp] theorem State.post_pending (r : EventRecord) : (s.post r).pending = s.pending := rfl

/-! ### complete -/

@[simp] theorem State.complete_pins (r : Result) : (s.complete r).pins = s.pins := rfl
@[simp] theorem State.complete_pCode (r : Result) : (s.complete r).pCode = s.pCode := rfl
@[simp] theorem State.complete_array (r : Result) : (s.complete r).array = s.array := rfl
@[simp] theorem State.complete_map (r : Result) : (s.complete r).map = s.map := rfl
@[simp] theorem State.complete_dir (r : Result) : (s.complete r).dir = s.dir := rfl
@[simp] theorem State.complete_mount (r : Result) : (s.complete r).mount = s.mount := rfl
@[simp] theorem State.complete_filler (r : Result) : (s.complete r).filler = s.filler := rfl
@[simp] theorem State.complete_chans (r : Result) : (s.complete r).chans = s.chans := rfl
@[simp] theorem State.complete_nextPos (r : Result) : (s.complete r).nextPos = s.nextPos := rfl
@[simp] theorem State.complete_port (r : Result) : (s.complete r).port = s.port := rfl
@[simp] theorem State.complete_scrub (r : Result) : (s.complete r).scrub = s.scrub := rfl
@[simp] theorem State.complete_faults (r : Result) : (s.complete r).faults = s.faults := rfl
@[simp] theorem State.complete_spareCtrl (r : Result) : (s.complete r).spareCtrl = s.spareCtrl := rfl
@[simp] theorem State.complete_mig (r : Result) : (s.complete r).mig = s.mig := rfl
@[simp] theorem State.complete_events (r : Result) :
    (s.complete r).events = s.events.offer (commandDoneRecord s.cmd.field r) := rfl
@[simp] theorem State.complete_irq (r : Result) : (s.complete r).irq = { s.irq with cmdDone := true } := rfl
@[simp] theorem State.complete_dev (r : Result) : (s.complete r).dev = s.dev := rfl
@[simp] theorem State.complete_diag (r : Result) : (s.complete r).diag = s.diag := rfl
@[simp] theorem State.complete_cmd (r : Result) :
    (s.complete r).cmd = { s.cmd with result := r, running := none } := rfl
@[simp] theorem State.complete_host (r : Result) : (s.complete r).host = s.host := rfl
@[simp] theorem State.complete_table (r : Result) : (s.complete r).table = s.table := rfl
@[simp] theorem State.complete_choices (r : Result) : (s.complete r).choices = s.choices := rfl
@[simp] theorem State.complete_pending (r : Result) : (s.complete r).pending = s.pending := rfl

/-! ### clearTicks -/

@[simp] theorem State.clearTicks_pins : (s.clearTicks).pins = s.pins := rfl
@[simp] theorem State.clearTicks_pCode : (s.clearTicks).pCode = s.pCode := rfl
@[simp] theorem State.clearTicks_array : (s.clearTicks).array = s.array := rfl
@[simp] theorem State.clearTicks_map : (s.clearTicks).map = s.map := rfl
@[simp] theorem State.clearTicks_dir : (s.clearTicks).dir = s.dir := rfl
@[simp] theorem State.clearTicks_mount : (s.clearTicks).mount = s.mount := rfl
@[simp] theorem State.clearTicks_filler : (s.clearTicks).filler = s.filler := rfl
@[simp] theorem State.clearTicks_chans : (s.clearTicks).chans = s.chans := rfl
@[simp] theorem State.clearTicks_nextPos : (s.clearTicks).nextPos = s.nextPos := rfl
@[simp] theorem State.clearTicks_port : (s.clearTicks).port = s.port := rfl
@[simp] theorem State.clearTicks_scrub : (s.clearTicks).scrub = { s.scrub with ticks := 0 } := rfl
@[simp] theorem State.clearTicks_faults : (s.clearTicks).faults = s.faults := rfl
@[simp] theorem State.clearTicks_spareCtrl : (s.clearTicks).spareCtrl = s.spareCtrl := rfl
@[simp] theorem State.clearTicks_mig : (s.clearTicks).mig = s.mig := rfl
@[simp] theorem State.clearTicks_events : (s.clearTicks).events = s.events := rfl
@[simp] theorem State.clearTicks_irq : (s.clearTicks).irq = s.irq := rfl
@[simp] theorem State.clearTicks_dev : (s.clearTicks).dev = s.dev := rfl
@[simp] theorem State.clearTicks_diag : (s.clearTicks).diag = s.diag := rfl
@[simp] theorem State.clearTicks_cmd : (s.clearTicks).cmd = s.cmd := rfl
@[simp] theorem State.clearTicks_host : (s.clearTicks).host = s.host := rfl
@[simp] theorem State.clearTicks_table : (s.clearTicks).table = s.table := rfl
@[simp] theorem State.clearTicks_choices : (s.clearTicks).choices = s.choices := rfl
@[simp] theorem State.clearTicks_pending : (s.clearTicks).pending = s.pending := rfl

/-! ### answer -/

@[simp] theorem State.answer_pins (v : Half) : (s.answer v).pins = s.pins := rfl
@[simp] theorem State.answer_pCode (v : Half) : (s.answer v).pCode = s.pCode := rfl
@[simp] theorem State.answer_array (v : Half) : (s.answer v).array = s.array := rfl
@[simp] theorem State.answer_map (v : Half) : (s.answer v).map = s.map := rfl
@[simp] theorem State.answer_dir (v : Half) : (s.answer v).dir = s.dir := rfl
@[simp] theorem State.answer_mount (v : Half) : (s.answer v).mount = s.mount := rfl
@[simp] theorem State.answer_filler (v : Half) : (s.answer v).filler = s.filler := rfl
@[simp] theorem State.answer_chans (v : Half) : (s.answer v).chans = s.chans := rfl
@[simp] theorem State.answer_nextPos (v : Half) : (s.answer v).nextPos = s.nextPos := rfl
@[simp] theorem State.answer_port (v : Half) : (s.answer v).port = s.port := rfl
@[simp] theorem State.answer_scrub (v : Half) : (s.answer v).scrub = s.scrub := rfl
@[simp] theorem State.answer_faults (v : Half) : (s.answer v).faults = s.faults := rfl
@[simp] theorem State.answer_spareCtrl (v : Half) : (s.answer v).spareCtrl = s.spareCtrl := rfl
@[simp] theorem State.answer_mig (v : Half) : (s.answer v).mig = s.mig := rfl
@[simp] theorem State.answer_events (v : Half) : (s.answer v).events = s.events := rfl
@[simp] theorem State.answer_irq (v : Half) : (s.answer v).irq = s.irq := rfl
@[simp] theorem State.answer_dev (v : Half) : (s.answer v).dev = s.dev := rfl
@[simp] theorem State.answer_diag (v : Half) : (s.answer v).diag = s.diag := rfl
@[simp] theorem State.answer_cmd (v : Half) : (s.answer v).cmd = s.cmd := rfl
@[simp] theorem State.answer_host (v : Half) : (s.answer v).host = { s.host with readData := v } := rfl
@[simp] theorem State.answer_table (v : Half) : (s.answer v).table = s.table := rfl
@[simp] theorem State.answer_choices (v : Half) : (s.answer v).choices = s.choices := rfl
@[simp] theorem State.answer_pending (v : Half) : (s.answer v).pending = s.pending := rfl

/-! ### hold -/

@[simp] theorem State.hold_pins (n : Fin 4) (high : Bool) (w : Option Half) : (s.hold n high w).pins = s.pins := rfl
@[simp] theorem State.hold_pCode (n : Fin 4) (high : Bool) (w : Option Half) : (s.hold n high w).pCode = s.pCode := rfl
@[simp] theorem State.hold_array (n : Fin 4) (high : Bool) (w : Option Half) : (s.hold n high w).array = s.array := rfl
@[simp] theorem State.hold_map (n : Fin 4) (high : Bool) (w : Option Half) : (s.hold n high w).map = s.map := rfl
@[simp] theorem State.hold_dir (n : Fin 4) (high : Bool) (w : Option Half) : (s.hold n high w).dir = s.dir := rfl
@[simp] theorem State.hold_mount (n : Fin 4) (high : Bool) (w : Option Half) : (s.hold n high w).mount = s.mount := rfl
@[simp] theorem State.hold_filler (n : Fin 4) (high : Bool) (w : Option Half) : (s.hold n high w).filler = s.filler := rfl
@[simp] theorem State.hold_chans (n : Fin 4) (high : Bool) (w : Option Half) : (s.hold n high w).chans = s.chans := rfl
@[simp] theorem State.hold_nextPos (n : Fin 4) (high : Bool) (w : Option Half) : (s.hold n high w).nextPos = s.nextPos := rfl
@[simp] theorem State.hold_port (n : Fin 4) (high : Bool) (w : Option Half) : (s.hold n high w).port = s.port := rfl
@[simp] theorem State.hold_scrub (n : Fin 4) (high : Bool) (w : Option Half) : (s.hold n high w).scrub = s.scrub := rfl
@[simp] theorem State.hold_faults (n : Fin 4) (high : Bool) (w : Option Half) : (s.hold n high w).faults = s.faults := rfl
@[simp] theorem State.hold_spareCtrl (n : Fin 4) (high : Bool) (w : Option Half) : (s.hold n high w).spareCtrl = s.spareCtrl := rfl
@[simp] theorem State.hold_mig (n : Fin 4) (high : Bool) (w : Option Half) : (s.hold n high w).mig = s.mig := rfl
@[simp] theorem State.hold_events (n : Fin 4) (high : Bool) (w : Option Half) : (s.hold n high w).events = s.events := rfl
@[simp] theorem State.hold_irq (n : Fin 4) (high : Bool) (w : Option Half) : (s.hold n high w).irq = s.irq := rfl
@[simp] theorem State.hold_dev (n : Fin 4) (high : Bool) (w : Option Half) : (s.hold n high w).dev = s.dev := rfl
@[simp] theorem State.hold_diag (n : Fin 4) (high : Bool) (w : Option Half) : (s.hold n high w).diag = s.diag := rfl
@[simp] theorem State.hold_cmd (n : Fin 4) (high : Bool) (w : Option Half) : (s.hold n high w).cmd = s.cmd := rfl
@[simp] theorem State.hold_host (n : Fin 4) (high : Bool) (w : Option Half) :
    (s.hold n high w).host = { s.host with held := some { chan := n, high := high, write := w, ticks := 0 } } := rfl
@[simp] theorem State.hold_table (n : Fin 4) (high : Bool) (w : Option Half) : (s.hold n high w).table = s.table := rfl
@[simp] theorem State.hold_choices (n : Fin 4) (high : Bool) (w : Option Half) : (s.hold n high w).choices = s.choices := rfl
@[simp] theorem State.hold_pending (n : Fin 4) (high : Bool) (w : Option Half) : (s.hold n high w).pending = s.pending := rfl

/-! ### unhold -/

@[simp] theorem State.unhold_pins : (s.unhold).pins = s.pins := rfl
@[simp] theorem State.unhold_pCode : (s.unhold).pCode = s.pCode := rfl
@[simp] theorem State.unhold_array : (s.unhold).array = s.array := rfl
@[simp] theorem State.unhold_map : (s.unhold).map = s.map := rfl
@[simp] theorem State.unhold_dir : (s.unhold).dir = s.dir := rfl
@[simp] theorem State.unhold_mount : (s.unhold).mount = s.mount := rfl
@[simp] theorem State.unhold_filler : (s.unhold).filler = s.filler := rfl
@[simp] theorem State.unhold_chans : (s.unhold).chans = s.chans := rfl
@[simp] theorem State.unhold_nextPos : (s.unhold).nextPos = s.nextPos := rfl
@[simp] theorem State.unhold_port : (s.unhold).port = s.port := rfl
@[simp] theorem State.unhold_scrub : (s.unhold).scrub = s.scrub := rfl
@[simp] theorem State.unhold_faults : (s.unhold).faults = s.faults := rfl
@[simp] theorem State.unhold_spareCtrl : (s.unhold).spareCtrl = s.spareCtrl := rfl
@[simp] theorem State.unhold_mig : (s.unhold).mig = s.mig := rfl
@[simp] theorem State.unhold_events : (s.unhold).events = s.events := rfl
@[simp] theorem State.unhold_irq : (s.unhold).irq = s.irq := rfl
@[simp] theorem State.unhold_dev : (s.unhold).dev = s.dev := rfl
@[simp] theorem State.unhold_diag : (s.unhold).diag = s.diag := rfl
@[simp] theorem State.unhold_cmd : (s.unhold).cmd = s.cmd := rfl
@[simp] theorem State.unhold_host : (s.unhold).host = { s.host with held := none } := rfl
@[simp] theorem State.unhold_table : (s.unhold).table = s.table := rfl
@[simp] theorem State.unhold_choices : (s.unhold).choices = s.choices := rfl
@[simp] theorem State.unhold_pending : (s.unhold).pending = s.pending := rfl

/-! ### ignoreWrite -/

@[simp] theorem State.ignoreWrite_pins (n : Fin 4) : (s.ignoreWrite n).pins = s.pins := rfl
@[simp] theorem State.ignoreWrite_pCode (n : Fin 4) : (s.ignoreWrite n).pCode = s.pCode := rfl
@[simp] theorem State.ignoreWrite_array (n : Fin 4) : (s.ignoreWrite n).array = s.array := rfl
@[simp] theorem State.ignoreWrite_map (n : Fin 4) : (s.ignoreWrite n).map = s.map := rfl
@[simp] theorem State.ignoreWrite_dir (n : Fin 4) : (s.ignoreWrite n).dir = s.dir := rfl
@[simp] theorem State.ignoreWrite_mount (n : Fin 4) : (s.ignoreWrite n).mount = s.mount := rfl
@[simp] theorem State.ignoreWrite_filler (n : Fin 4) : (s.ignoreWrite n).filler = s.filler := rfl
@[simp] theorem State.ignoreWrite_chans (n : Fin 4) :
    (s.ignoreWrite n).chans = s.chans.set n { s.chan n with writeIgnored := true } := rfl
@[simp] theorem State.ignoreWrite_nextPos (n : Fin 4) : (s.ignoreWrite n).nextPos = s.nextPos := rfl
@[simp] theorem State.ignoreWrite_port (n : Fin 4) : (s.ignoreWrite n).port = s.port := rfl
@[simp] theorem State.ignoreWrite_scrub (n : Fin 4) : (s.ignoreWrite n).scrub = s.scrub := rfl
@[simp] theorem State.ignoreWrite_faults (n : Fin 4) : (s.ignoreWrite n).faults = s.faults := rfl
@[simp] theorem State.ignoreWrite_spareCtrl (n : Fin 4) : (s.ignoreWrite n).spareCtrl = s.spareCtrl := rfl
@[simp] theorem State.ignoreWrite_mig (n : Fin 4) : (s.ignoreWrite n).mig = s.mig := rfl
@[simp] theorem State.ignoreWrite_events (n : Fin 4) : (s.ignoreWrite n).events = s.events := rfl
@[simp] theorem State.ignoreWrite_irq (n : Fin 4) : (s.ignoreWrite n).irq = s.irq := rfl
@[simp] theorem State.ignoreWrite_dev (n : Fin 4) : (s.ignoreWrite n).dev = s.dev := rfl
@[simp] theorem State.ignoreWrite_diag (n : Fin 4) : (s.ignoreWrite n).diag = s.diag := rfl
@[simp] theorem State.ignoreWrite_cmd (n : Fin 4) : (s.ignoreWrite n).cmd = s.cmd := rfl
@[simp] theorem State.ignoreWrite_host (n : Fin 4) : (s.ignoreWrite n).host = s.host := rfl
@[simp] theorem State.ignoreWrite_table (n : Fin 4) : (s.ignoreWrite n).table = s.table := rfl
@[simp] theorem State.ignoreWrite_choices (n : Fin 4) : (s.ignoreWrite n).choices = s.choices := rfl
@[simp] theorem State.ignoreWrite_pending (n : Fin 4) : (s.ignoreWrite n).pending = s.pending := rfl

/-! ### dropGrant -/

@[simp] theorem State.dropGrant_pins (n : Fin 4) : (s.dropGrant n).pins = s.pins := rfl
@[simp] theorem State.dropGrant_pCode (n : Fin 4) : (s.dropGrant n).pCode = s.pCode := rfl
@[simp] theorem State.dropGrant_array (n : Fin 4) : (s.dropGrant n).array = s.array := rfl
@[simp] theorem State.dropGrant_map (n : Fin 4) : (s.dropGrant n).map = s.map := rfl
@[simp] theorem State.dropGrant_dir (n : Fin 4) : (s.dropGrant n).dir = s.dir := rfl
@[simp] theorem State.dropGrant_mount (n : Fin 4) : (s.dropGrant n).mount = s.mount := rfl
@[simp] theorem State.dropGrant_filler (n : Fin 4) : (s.dropGrant n).filler = s.filler := rfl
@[simp] theorem State.dropGrant_chans (n : Fin 4) :
    (s.dropGrant n).chans = s.chans.set n { s.chan n with holds := false } := rfl
@[simp] theorem State.dropGrant_nextPos (n : Fin 4) : (s.dropGrant n).nextPos = s.nextPos := rfl
@[simp] theorem State.dropGrant_port (n : Fin 4) : (s.dropGrant n).port = s.port := rfl
@[simp] theorem State.dropGrant_scrub (n : Fin 4) : (s.dropGrant n).scrub = s.scrub := rfl
@[simp] theorem State.dropGrant_faults (n : Fin 4) : (s.dropGrant n).faults = s.faults := rfl
@[simp] theorem State.dropGrant_spareCtrl (n : Fin 4) : (s.dropGrant n).spareCtrl = s.spareCtrl := rfl
@[simp] theorem State.dropGrant_mig (n : Fin 4) : (s.dropGrant n).mig = s.mig := rfl
@[simp] theorem State.dropGrant_events (n : Fin 4) : (s.dropGrant n).events = s.events := rfl
@[simp] theorem State.dropGrant_irq (n : Fin 4) : (s.dropGrant n).irq = s.irq := rfl
@[simp] theorem State.dropGrant_dev (n : Fin 4) : (s.dropGrant n).dev = s.dev := rfl
@[simp] theorem State.dropGrant_diag (n : Fin 4) : (s.dropGrant n).diag = s.diag := rfl
@[simp] theorem State.dropGrant_cmd (n : Fin 4) : (s.dropGrant n).cmd = s.cmd := rfl
@[simp] theorem State.dropGrant_host (n : Fin 4) : (s.dropGrant n).host = s.host := rfl
@[simp] theorem State.dropGrant_table (n : Fin 4) : (s.dropGrant n).table = s.table := rfl
@[simp] theorem State.dropGrant_choices (n : Fin 4) : (s.dropGrant n).choices = s.choices := rfl
@[simp] theorem State.dropGrant_pending (n : Fin 4) : (s.dropGrant n).pending = s.pending := rfl

/-! ### popEntry -/

@[simp] theorem State.popEntry_pins (n : Fin 4) : (s.popEntry n).pins = s.pins := rfl
@[simp] theorem State.popEntry_pCode (n : Fin 4) : (s.popEntry n).pCode = s.pCode := rfl
@[simp] theorem State.popEntry_array (n : Fin 4) : (s.popEntry n).array = s.array := rfl
@[simp] theorem State.popEntry_map (n : Fin 4) : (s.popEntry n).map = s.map := rfl
@[simp] theorem State.popEntry_dir (n : Fin 4) : (s.popEntry n).dir = s.dir := rfl
@[simp] theorem State.popEntry_mount (n : Fin 4) : (s.popEntry n).mount = s.mount := rfl
@[simp] theorem State.popEntry_filler (n : Fin 4) : (s.popEntry n).filler = s.filler := rfl
@[simp] theorem State.popEntry_chans (n : Fin 4) :
    (s.popEntry n).chans = s.chans.set n { s.chan n with writeQ := (s.chan n).writeQ.tail, holds := false } := rfl
@[simp] theorem State.popEntry_nextPos (n : Fin 4) : (s.popEntry n).nextPos = s.nextPos := rfl
@[simp] theorem State.popEntry_port (n : Fin 4) : (s.popEntry n).port = s.port := rfl
@[simp] theorem State.popEntry_scrub (n : Fin 4) : (s.popEntry n).scrub = s.scrub := rfl
@[simp] theorem State.popEntry_faults (n : Fin 4) : (s.popEntry n).faults = s.faults := rfl
@[simp] theorem State.popEntry_spareCtrl (n : Fin 4) : (s.popEntry n).spareCtrl = s.spareCtrl := rfl
@[simp] theorem State.popEntry_mig (n : Fin 4) : (s.popEntry n).mig = s.mig := rfl
@[simp] theorem State.popEntry_events (n : Fin 4) : (s.popEntry n).events = s.events := rfl
@[simp] theorem State.popEntry_irq (n : Fin 4) : (s.popEntry n).irq = s.irq := rfl
@[simp] theorem State.popEntry_dev (n : Fin 4) : (s.popEntry n).dev = s.dev := rfl
@[simp] theorem State.popEntry_diag (n : Fin 4) : (s.popEntry n).diag = s.diag := rfl
@[simp] theorem State.popEntry_cmd (n : Fin 4) : (s.popEntry n).cmd = s.cmd := rfl
@[simp] theorem State.popEntry_host (n : Fin 4) : (s.popEntry n).host = s.host := rfl
@[simp] theorem State.popEntry_table (n : Fin 4) : (s.popEntry n).table = s.table := rfl
@[simp] theorem State.popEntry_choices (n : Fin 4) : (s.popEntry n).choices = s.choices := rfl
@[simp] theorem State.popEntry_pending (n : Fin 4) : (s.popEntry n).pending = s.pending := rfl

/-! ### dropScrubGrant -/

@[simp] theorem State.dropScrubGrant_pins : (s.dropScrubGrant).pins = s.pins := rfl
@[simp] theorem State.dropScrubGrant_pCode : (s.dropScrubGrant).pCode = s.pCode := rfl
@[simp] theorem State.dropScrubGrant_array : (s.dropScrubGrant).array = s.array := rfl
@[simp] theorem State.dropScrubGrant_map : (s.dropScrubGrant).map = s.map := rfl
@[simp] theorem State.dropScrubGrant_dir : (s.dropScrubGrant).dir = s.dir := rfl
@[simp] theorem State.dropScrubGrant_mount : (s.dropScrubGrant).mount = s.mount := rfl
@[simp] theorem State.dropScrubGrant_filler : (s.dropScrubGrant).filler = s.filler := rfl
@[simp] theorem State.dropScrubGrant_chans : (s.dropScrubGrant).chans = s.chans := rfl
@[simp] theorem State.dropScrubGrant_nextPos : (s.dropScrubGrant).nextPos = s.nextPos := rfl
@[simp] theorem State.dropScrubGrant_port : (s.dropScrubGrant).port = s.port := rfl
@[simp] theorem State.dropScrubGrant_scrub : (s.dropScrubGrant).scrub = { s.scrub with holds := false } := rfl
@[simp] theorem State.dropScrubGrant_faults : (s.dropScrubGrant).faults = s.faults := rfl
@[simp] theorem State.dropScrubGrant_spareCtrl : (s.dropScrubGrant).spareCtrl = s.spareCtrl := rfl
@[simp] theorem State.dropScrubGrant_mig : (s.dropScrubGrant).mig = s.mig := rfl
@[simp] theorem State.dropScrubGrant_events : (s.dropScrubGrant).events = s.events := rfl
@[simp] theorem State.dropScrubGrant_irq : (s.dropScrubGrant).irq = s.irq := rfl
@[simp] theorem State.dropScrubGrant_dev : (s.dropScrubGrant).dev = s.dev := rfl
@[simp] theorem State.dropScrubGrant_diag : (s.dropScrubGrant).diag = s.diag := rfl
@[simp] theorem State.dropScrubGrant_cmd : (s.dropScrubGrant).cmd = s.cmd := rfl
@[simp] theorem State.dropScrubGrant_host : (s.dropScrubGrant).host = s.host := rfl
@[simp] theorem State.dropScrubGrant_table : (s.dropScrubGrant).table = s.table := rfl
@[simp] theorem State.dropScrubGrant_choices : (s.dropScrubGrant).choices = s.choices := rfl
@[simp] theorem State.dropScrubGrant_pending : (s.dropScrubGrant).pending = s.pending := rfl

/-! ### emptyLatch -/

@[simp] theorem State.emptyLatch_pins : (s.emptyLatch).pins = s.pins := rfl
@[simp] theorem State.emptyLatch_pCode : (s.emptyLatch).pCode = s.pCode := rfl
@[simp] theorem State.emptyLatch_array : (s.emptyLatch).array = s.array := rfl
@[simp] theorem State.emptyLatch_map : (s.emptyLatch).map = s.map := rfl
@[simp] theorem State.emptyLatch_dir : (s.emptyLatch).dir = s.dir := rfl
@[simp] theorem State.emptyLatch_mount : (s.emptyLatch).mount = s.mount := rfl
@[simp] theorem State.emptyLatch_filler : (s.emptyLatch).filler = s.filler := rfl
@[simp] theorem State.emptyLatch_chans : (s.emptyLatch).chans = s.chans := rfl
@[simp] theorem State.emptyLatch_nextPos : (s.emptyLatch).nextPos = s.nextPos := rfl
@[simp] theorem State.emptyLatch_port : (s.emptyLatch).port = s.port := rfl
@[simp] theorem State.emptyLatch_scrub : (s.emptyLatch).scrub = s.scrub := rfl
@[simp] theorem State.emptyLatch_faults : (s.emptyLatch).faults = s.faults := rfl
@[simp] theorem State.emptyLatch_spareCtrl : (s.emptyLatch).spareCtrl = s.spareCtrl := rfl
@[simp] theorem State.emptyLatch_mig : (s.emptyLatch).mig = s.mig := rfl
@[simp] theorem State.emptyLatch_events : (s.emptyLatch).events = s.events := rfl
@[simp] theorem State.emptyLatch_irq : (s.emptyLatch).irq = s.irq := rfl
@[simp] theorem State.emptyLatch_dev : (s.emptyLatch).dev = s.dev := rfl
@[simp] theorem State.emptyLatch_diag : (s.emptyLatch).diag = s.diag := rfl
@[simp] theorem State.emptyLatch_cmd : (s.emptyLatch).cmd = s.cmd := rfl
@[simp] theorem State.emptyLatch_host : (s.emptyLatch).host = { s.host with latch := none } := rfl
@[simp] theorem State.emptyLatch_table : (s.emptyLatch).table = s.table := rfl
@[simp] theorem State.emptyLatch_choices : (s.emptyLatch).choices = s.choices := rfl
@[simp] theorem State.emptyLatch_pending : (s.emptyLatch).pending = s.pending := rfl

/-! ### requestFurther -/

@[simp] theorem State.requestFurther_pins : (s.requestFurther).pins = s.pins := rfl
@[simp] theorem State.requestFurther_pCode : (s.requestFurther).pCode = s.pCode := rfl
@[simp] theorem State.requestFurther_array : (s.requestFurther).array = s.array := rfl
@[simp] theorem State.requestFurther_map : (s.requestFurther).map = s.map := rfl
@[simp] theorem State.requestFurther_dir : (s.requestFurther).dir = { s.dir with pendingFlag := true } := rfl
@[simp] theorem State.requestFurther_mount : (s.requestFurther).mount = s.mount := rfl
@[simp] theorem State.requestFurther_filler : (s.requestFurther).filler = s.filler := rfl
@[simp] theorem State.requestFurther_chans : (s.requestFurther).chans = s.chans := rfl
@[simp] theorem State.requestFurther_nextPos : (s.requestFurther).nextPos = s.nextPos := rfl
@[simp] theorem State.requestFurther_port : (s.requestFurther).port = s.port := rfl
@[simp] theorem State.requestFurther_scrub : (s.requestFurther).scrub = s.scrub := rfl
@[simp] theorem State.requestFurther_faults : (s.requestFurther).faults = s.faults := rfl
@[simp] theorem State.requestFurther_spareCtrl : (s.requestFurther).spareCtrl = s.spareCtrl := rfl
@[simp] theorem State.requestFurther_mig : (s.requestFurther).mig = s.mig := rfl
@[simp] theorem State.requestFurther_events : (s.requestFurther).events = s.events := rfl
@[simp] theorem State.requestFurther_irq : (s.requestFurther).irq = s.irq := rfl
@[simp] theorem State.requestFurther_dev : (s.requestFurther).dev = s.dev := rfl
@[simp] theorem State.requestFurther_diag : (s.requestFurther).diag = s.diag := rfl
@[simp] theorem State.requestFurther_cmd : (s.requestFurther).cmd = s.cmd := rfl
@[simp] theorem State.requestFurther_host : (s.requestFurther).host = s.host := rfl
@[simp] theorem State.requestFurther_table : (s.requestFurther).table = s.table := rfl
@[simp] theorem State.requestFurther_choices : (s.requestFurther).choices = s.choices := rfl
@[simp] theorem State.requestFurther_pending : (s.requestFurther).pending = s.pending := rfl

/-! ### setReadonly -/

@[simp] theorem State.setReadonly_pins : (s.setReadonly).pins = s.pins := rfl
@[simp] theorem State.setReadonly_pCode : (s.setReadonly).pCode = s.pCode := rfl
@[simp] theorem State.setReadonly_array : (s.setReadonly).array = s.array := rfl
@[simp] theorem State.setReadonly_map : (s.setReadonly).map = s.map := rfl
@[simp] theorem State.setReadonly_dir : (s.setReadonly).dir = s.dir := rfl
@[simp] theorem State.setReadonly_mount : (s.setReadonly).mount = s.mount := rfl
@[simp] theorem State.setReadonly_filler : (s.setReadonly).filler = s.filler := rfl
@[simp] theorem State.setReadonly_chans : (s.setReadonly).chans = s.chans := rfl
@[simp] theorem State.setReadonly_nextPos : (s.setReadonly).nextPos = s.nextPos := rfl
@[simp] theorem State.setReadonly_port : (s.setReadonly).port = s.port := rfl
@[simp] theorem State.setReadonly_scrub : (s.setReadonly).scrub = s.scrub := rfl
@[simp] theorem State.setReadonly_faults : (s.setReadonly).faults = s.faults := rfl
@[simp] theorem State.setReadonly_spareCtrl : (s.setReadonly).spareCtrl = s.spareCtrl := rfl
@[simp] theorem State.setReadonly_mig : (s.setReadonly).mig = s.mig := rfl
@[simp] theorem State.setReadonly_events : (s.setReadonly).events = s.events := rfl
@[simp] theorem State.setReadonly_irq : (s.setReadonly).irq = s.irq := rfl
@[simp] theorem State.setReadonly_dev : (s.setReadonly).dev = { s.dev with dirReadonly := true } := rfl
@[simp] theorem State.setReadonly_diag : (s.setReadonly).diag = s.diag := rfl
@[simp] theorem State.setReadonly_cmd : (s.setReadonly).cmd = s.cmd := rfl
@[simp] theorem State.setReadonly_host : (s.setReadonly).host = s.host := rfl
@[simp] theorem State.setReadonly_table : (s.setReadonly).table = s.table := rfl
@[simp] theorem State.setReadonly_choices : (s.setReadonly).choices = s.choices := rfl
@[simp] theorem State.setReadonly_pending : (s.setReadonly).pending = s.pending := rfl

/-! ### commitIdle -/

@[simp] theorem State.commitIdle_pins : (s.commitIdle).pins = s.pins := rfl
@[simp] theorem State.commitIdle_pCode : (s.commitIdle).pCode = s.pCode := rfl
@[simp] theorem State.commitIdle_array : (s.commitIdle).array = s.array := rfl
@[simp] theorem State.commitIdle_map : (s.commitIdle).map = s.map := rfl
@[simp] theorem State.commitIdle_dir :
    (s.commitIdle).dir = { s.dir with state := .idle, pendingFlag := false, closing := false } := rfl
@[simp] theorem State.commitIdle_mount : (s.commitIdle).mount = s.mount := rfl
@[simp] theorem State.commitIdle_filler : (s.commitIdle).filler = s.filler := rfl
@[simp] theorem State.commitIdle_chans : (s.commitIdle).chans = s.chans := rfl
@[simp] theorem State.commitIdle_nextPos : (s.commitIdle).nextPos = s.nextPos := rfl
@[simp] theorem State.commitIdle_port : (s.commitIdle).port = s.port := rfl
@[simp] theorem State.commitIdle_scrub : (s.commitIdle).scrub = s.scrub := rfl
@[simp] theorem State.commitIdle_faults : (s.commitIdle).faults = s.faults := rfl
@[simp] theorem State.commitIdle_spareCtrl : (s.commitIdle).spareCtrl = s.spareCtrl := rfl
@[simp] theorem State.commitIdle_mig : (s.commitIdle).mig = s.mig := rfl
@[simp] theorem State.commitIdle_events : (s.commitIdle).events = s.events := rfl
@[simp] theorem State.commitIdle_irq : (s.commitIdle).irq = s.irq := rfl
@[simp] theorem State.commitIdle_dev : (s.commitIdle).dev = s.dev := rfl
@[simp] theorem State.commitIdle_diag : (s.commitIdle).diag = s.diag := rfl
@[simp] theorem State.commitIdle_cmd : (s.commitIdle).cmd = s.cmd := rfl
@[simp] theorem State.commitIdle_host : (s.commitIdle).host = s.host := rfl
@[simp] theorem State.commitIdle_table : (s.commitIdle).table = s.table := rfl
@[simp] theorem State.commitIdle_choices : (s.commitIdle).choices = s.choices := rfl
@[simp] theorem State.commitIdle_pending : (s.commitIdle).pending = s.pending := rfl

/-! ### begin -/

@[simp] theorem State.begin_pins (r : Running) : (s.begin r).pins = s.pins := rfl
@[simp] theorem State.begin_pCode (r : Running) : (s.begin r).pCode = s.pCode := rfl
@[simp] theorem State.begin_array (r : Running) : (s.begin r).array = s.array := rfl
@[simp] theorem State.begin_map (r : Running) : (s.begin r).map = s.map := rfl
@[simp] theorem State.begin_dir (r : Running) : (s.begin r).dir = s.dir := rfl
@[simp] theorem State.begin_mount (r : Running) : (s.begin r).mount = s.mount := rfl
@[simp] theorem State.begin_filler (r : Running) : (s.begin r).filler = s.filler := rfl
@[simp] theorem State.begin_chans (r : Running) : (s.begin r).chans = s.chans := rfl
@[simp] theorem State.begin_nextPos (r : Running) : (s.begin r).nextPos = s.nextPos := rfl
@[simp] theorem State.begin_port (r : Running) : (s.begin r).port = s.port := rfl
@[simp] theorem State.begin_scrub (r : Running) : (s.begin r).scrub = s.scrub := rfl
@[simp] theorem State.begin_faults (r : Running) : (s.begin r).faults = s.faults := rfl
@[simp] theorem State.begin_spareCtrl (r : Running) : (s.begin r).spareCtrl = s.spareCtrl := rfl
@[simp] theorem State.begin_mig (r : Running) : (s.begin r).mig = s.mig := rfl
@[simp] theorem State.begin_events (r : Running) : (s.begin r).events = s.events := rfl
@[simp] theorem State.begin_irq (r : Running) : (s.begin r).irq = s.irq := rfl
@[simp] theorem State.begin_dev (r : Running) : (s.begin r).dev = s.dev := rfl
@[simp] theorem State.begin_diag (r : Running) : (s.begin r).diag = s.diag := rfl
@[simp] theorem State.begin_cmd (r : Running) : (s.begin r).cmd = { s.cmd with running := some r } := rfl
@[simp] theorem State.begin_host (r : Running) : (s.begin r).host = s.host := rfl
@[simp] theorem State.begin_table (r : Running) : (s.begin r).table = s.table := rfl
@[simp] theorem State.begin_choices (r : Running) : (s.begin r).choices = s.choices := rfl
@[simp] theorem State.begin_pending (r : Running) : (s.begin r).pending = s.pending := rfl

/-! ### openCommand -/

@[simp] theorem State.openCommand_pins (v : Half) : (s.openCommand v).pins = s.pins := rfl
@[simp] theorem State.openCommand_pCode (v : Half) : (s.openCommand v).pCode = s.pCode := rfl
@[simp] theorem State.openCommand_array (v : Half) : (s.openCommand v).array = s.array := rfl
@[simp] theorem State.openCommand_map (v : Half) : (s.openCommand v).map = s.map := rfl
@[simp] theorem State.openCommand_dir (v : Half) : (s.openCommand v).dir = s.dir := rfl
@[simp] theorem State.openCommand_mount (v : Half) : (s.openCommand v).mount = s.mount := rfl
@[simp] theorem State.openCommand_filler (v : Half) : (s.openCommand v).filler = s.filler := rfl
@[simp] theorem State.openCommand_chans (v : Half) : (s.openCommand v).chans = s.chans := rfl
@[simp] theorem State.openCommand_nextPos (v : Half) : (s.openCommand v).nextPos = s.nextPos := rfl
@[simp] theorem State.openCommand_port (v : Half) : (s.openCommand v).port = s.port := rfl
@[simp] theorem State.openCommand_scrub (v : Half) : (s.openCommand v).scrub = s.scrub := rfl
@[simp] theorem State.openCommand_faults (v : Half) : (s.openCommand v).faults = s.faults := rfl
@[simp] theorem State.openCommand_spareCtrl (v : Half) : (s.openCommand v).spareCtrl = s.spareCtrl := rfl
@[simp] theorem State.openCommand_mig (v : Half) : (s.openCommand v).mig = s.mig := rfl
@[simp] theorem State.openCommand_events (v : Half) : (s.openCommand v).events = s.events := rfl
@[simp] theorem State.openCommand_irq (v : Half) : (s.openCommand v).irq = s.irq := rfl
@[simp] theorem State.openCommand_dev (v : Half) : (s.openCommand v).dev = s.dev := rfl
@[simp] theorem State.openCommand_diag (v : Half) : (s.openCommand v).diag = s.diag := rfl
@[simp] theorem State.openCommand_cmd (v : Half) :
    (s.openCommand v).cmd = { s.cmd with refused := false, field := v.extractLsb' 0 8, result := .ok } := rfl
@[simp] theorem State.openCommand_host (v : Half) : (s.openCommand v).host = s.host := rfl
@[simp] theorem State.openCommand_table (v : Half) : (s.openCommand v).table = s.table := rfl
@[simp] theorem State.openCommand_choices (v : Half) : (s.openCommand v).choices = s.choices := rfl
@[simp] theorem State.openCommand_pending (v : Half) : (s.openCommand v).pending = s.pending := rfl

/-! ### clearGrant -/

@[simp] theorem State.clearGrant_pins : (s.clearGrant).pins = s.pins := rfl
@[simp] theorem State.clearGrant_pCode : (s.clearGrant).pCode = s.pCode := rfl
@[simp] theorem State.clearGrant_array : (s.clearGrant).array = s.array := rfl
@[simp] theorem State.clearGrant_map : (s.clearGrant).map = s.map := rfl
@[simp] theorem State.clearGrant_dir : (s.clearGrant).dir = s.dir := rfl
@[simp] theorem State.clearGrant_mount : (s.clearGrant).mount = s.mount := rfl
@[simp] theorem State.clearGrant_filler : (s.clearGrant).filler = s.filler := rfl
@[simp] theorem State.clearGrant_chans : (s.clearGrant).chans = s.chans := rfl
@[simp] theorem State.clearGrant_nextPos : (s.clearGrant).nextPos = s.nextPos := rfl
@[simp] theorem State.clearGrant_port : (s.clearGrant).port = { s.port with grant := none, cls := none } := rfl
@[simp] theorem State.clearGrant_scrub : (s.clearGrant).scrub = s.scrub := rfl
@[simp] theorem State.clearGrant_faults : (s.clearGrant).faults = s.faults := rfl
@[simp] theorem State.clearGrant_spareCtrl : (s.clearGrant).spareCtrl = s.spareCtrl := rfl
@[simp] theorem State.clearGrant_mig : (s.clearGrant).mig = s.mig := rfl
@[simp] theorem State.clearGrant_events : (s.clearGrant).events = s.events := rfl
@[simp] theorem State.clearGrant_irq : (s.clearGrant).irq = s.irq := rfl
@[simp] theorem State.clearGrant_dev : (s.clearGrant).dev = s.dev := rfl
@[simp] theorem State.clearGrant_diag : (s.clearGrant).diag = s.diag := rfl
@[simp] theorem State.clearGrant_cmd : (s.clearGrant).cmd = s.cmd := rfl
@[simp] theorem State.clearGrant_host : (s.clearGrant).host = s.host := rfl
@[simp] theorem State.clearGrant_table : (s.clearGrant).table = s.table := rfl
@[simp] theorem State.clearGrant_choices : (s.clearGrant).choices = s.choices := rfl
@[simp] theorem State.clearGrant_pending : (s.clearGrant).pending = s.pending := rfl

/-! ### clearAccesses -/

@[simp] theorem State.clearAccesses_pins : (s.clearAccesses).pins = s.pins := rfl
@[simp] theorem State.clearAccesses_pCode : (s.clearAccesses).pCode = s.pCode := rfl
@[simp] theorem State.clearAccesses_array : (s.clearAccesses).array = s.array := rfl
@[simp] theorem State.clearAccesses_map : (s.clearAccesses).map = s.map := rfl
@[simp] theorem State.clearAccesses_dir : (s.clearAccesses).dir = s.dir := rfl
@[simp] theorem State.clearAccesses_mount : (s.clearAccesses).mount = s.mount := rfl
@[simp] theorem State.clearAccesses_filler : (s.clearAccesses).filler = s.filler := rfl
@[simp] theorem State.clearAccesses_chans : (s.clearAccesses).chans = s.chans := rfl
@[simp] theorem State.clearAccesses_nextPos : (s.clearAccesses).nextPos = s.nextPos := rfl
@[simp] theorem State.clearAccesses_port : (s.clearAccesses).port = { s.port with accesses := [] } := rfl
@[simp] theorem State.clearAccesses_scrub : (s.clearAccesses).scrub = s.scrub := rfl
@[simp] theorem State.clearAccesses_faults : (s.clearAccesses).faults = s.faults := rfl
@[simp] theorem State.clearAccesses_spareCtrl : (s.clearAccesses).spareCtrl = s.spareCtrl := rfl
@[simp] theorem State.clearAccesses_mig : (s.clearAccesses).mig = s.mig := rfl
@[simp] theorem State.clearAccesses_events : (s.clearAccesses).events = s.events := rfl
@[simp] theorem State.clearAccesses_irq : (s.clearAccesses).irq = s.irq := rfl
@[simp] theorem State.clearAccesses_dev : (s.clearAccesses).dev = s.dev := rfl
@[simp] theorem State.clearAccesses_diag : (s.clearAccesses).diag = s.diag := rfl
@[simp] theorem State.clearAccesses_cmd : (s.clearAccesses).cmd = s.cmd := rfl
@[simp] theorem State.clearAccesses_host : (s.clearAccesses).host = s.host := rfl
@[simp] theorem State.clearAccesses_table : (s.clearAccesses).table = s.table := rfl
@[simp] theorem State.clearAccesses_choices : (s.clearAccesses).choices = s.choices := rfl
@[simp] theorem State.clearAccesses_pending : (s.clearAccesses).pending = s.pending := rfl

/-! ### setNReset -/

@[simp] theorem State.setNReset_pins (v : Bool) : (s.setNReset v).pins = { s.pins with nReset := v } := rfl
@[simp] theorem State.setNReset_pCode (v : Bool) : (s.setNReset v).pCode = s.pCode := rfl
@[simp] theorem State.setNReset_array (v : Bool) : (s.setNReset v).array = s.array := rfl
@[simp] theorem State.setNReset_map (v : Bool) : (s.setNReset v).map = s.map := rfl
@[simp] theorem State.setNReset_dir (v : Bool) : (s.setNReset v).dir = s.dir := rfl
@[simp] theorem State.setNReset_mount (v : Bool) : (s.setNReset v).mount = s.mount := rfl
@[simp] theorem State.setNReset_filler (v : Bool) : (s.setNReset v).filler = s.filler := rfl
@[simp] theorem State.setNReset_chans (v : Bool) : (s.setNReset v).chans = s.chans := rfl
@[simp] theorem State.setNReset_nextPos (v : Bool) : (s.setNReset v).nextPos = s.nextPos := rfl
@[simp] theorem State.setNReset_port (v : Bool) : (s.setNReset v).port = s.port := rfl
@[simp] theorem State.setNReset_scrub (v : Bool) : (s.setNReset v).scrub = s.scrub := rfl
@[simp] theorem State.setNReset_faults (v : Bool) : (s.setNReset v).faults = s.faults := rfl
@[simp] theorem State.setNReset_spareCtrl (v : Bool) : (s.setNReset v).spareCtrl = s.spareCtrl := rfl
@[simp] theorem State.setNReset_mig (v : Bool) : (s.setNReset v).mig = s.mig := rfl
@[simp] theorem State.setNReset_events (v : Bool) : (s.setNReset v).events = s.events := rfl
@[simp] theorem State.setNReset_irq (v : Bool) : (s.setNReset v).irq = s.irq := rfl
@[simp] theorem State.setNReset_dev (v : Bool) : (s.setNReset v).dev = s.dev := rfl
@[simp] theorem State.setNReset_diag (v : Bool) : (s.setNReset v).diag = s.diag := rfl
@[simp] theorem State.setNReset_cmd (v : Bool) : (s.setNReset v).cmd = s.cmd := rfl
@[simp] theorem State.setNReset_host (v : Bool) : (s.setNReset v).host = s.host := rfl
@[simp] theorem State.setNReset_table (v : Bool) : (s.setNReset v).table = s.table := rfl
@[simp] theorem State.setNReset_choices (v : Bool) : (s.setNReset v).choices = s.choices := rfl
@[simp] theorem State.setNReset_pending (v : Bool) : (s.setNReset v).pending = s.pending := rfl

/-! ### setNPfail -/

@[simp] theorem State.setNPfail_pins (v : Bool) : (s.setNPfail v).pins = { s.pins with nPfail := v } := rfl
@[simp] theorem State.setNPfail_pCode (v : Bool) : (s.setNPfail v).pCode = s.pCode := rfl
@[simp] theorem State.setNPfail_array (v : Bool) : (s.setNPfail v).array = s.array := rfl
@[simp] theorem State.setNPfail_map (v : Bool) : (s.setNPfail v).map = s.map := rfl
@[simp] theorem State.setNPfail_dir (v : Bool) : (s.setNPfail v).dir = s.dir := rfl
@[simp] theorem State.setNPfail_mount (v : Bool) : (s.setNPfail v).mount = s.mount := rfl
@[simp] theorem State.setNPfail_filler (v : Bool) : (s.setNPfail v).filler = s.filler := rfl
@[simp] theorem State.setNPfail_chans (v : Bool) : (s.setNPfail v).chans = s.chans := rfl
@[simp] theorem State.setNPfail_nextPos (v : Bool) : (s.setNPfail v).nextPos = s.nextPos := rfl
@[simp] theorem State.setNPfail_port (v : Bool) : (s.setNPfail v).port = s.port := rfl
@[simp] theorem State.setNPfail_scrub (v : Bool) : (s.setNPfail v).scrub = s.scrub := rfl
@[simp] theorem State.setNPfail_faults (v : Bool) : (s.setNPfail v).faults = s.faults := rfl
@[simp] theorem State.setNPfail_spareCtrl (v : Bool) : (s.setNPfail v).spareCtrl = s.spareCtrl := rfl
@[simp] theorem State.setNPfail_mig (v : Bool) : (s.setNPfail v).mig = s.mig := rfl
@[simp] theorem State.setNPfail_events (v : Bool) : (s.setNPfail v).events = s.events := rfl
@[simp] theorem State.setNPfail_irq (v : Bool) : (s.setNPfail v).irq = s.irq := rfl
@[simp] theorem State.setNPfail_dev (v : Bool) : (s.setNPfail v).dev = s.dev := rfl
@[simp] theorem State.setNPfail_diag (v : Bool) : (s.setNPfail v).diag = s.diag := rfl
@[simp] theorem State.setNPfail_cmd (v : Bool) : (s.setNPfail v).cmd = s.cmd := rfl
@[simp] theorem State.setNPfail_host (v : Bool) : (s.setNPfail v).host = s.host := rfl
@[simp] theorem State.setNPfail_table (v : Bool) : (s.setNPfail v).table = s.table := rfl
@[simp] theorem State.setNPfail_choices (v : Bool) : (s.setNPfail v).choices = s.choices := rfl
@[simp] theorem State.setNPfail_pending (v : Bool) : (s.setNPfail v).pending = s.pending := rfl

/-! ### setAsz -/

@[simp] theorem State.setAsz_pins (v : BitVec 2) : (s.setAsz v).pins = { s.pins with asz := v } := rfl
@[simp] theorem State.setAsz_pCode (v : BitVec 2) : (s.setAsz v).pCode = s.pCode := rfl
@[simp] theorem State.setAsz_array (v : BitVec 2) : (s.setAsz v).array = s.array := rfl
@[simp] theorem State.setAsz_map (v : BitVec 2) : (s.setAsz v).map = s.map := rfl
@[simp] theorem State.setAsz_dir (v : BitVec 2) : (s.setAsz v).dir = s.dir := rfl
@[simp] theorem State.setAsz_mount (v : BitVec 2) : (s.setAsz v).mount = s.mount := rfl
@[simp] theorem State.setAsz_filler (v : BitVec 2) : (s.setAsz v).filler = s.filler := rfl
@[simp] theorem State.setAsz_chans (v : BitVec 2) : (s.setAsz v).chans = s.chans := rfl
@[simp] theorem State.setAsz_nextPos (v : BitVec 2) : (s.setAsz v).nextPos = s.nextPos := rfl
@[simp] theorem State.setAsz_port (v : BitVec 2) : (s.setAsz v).port = s.port := rfl
@[simp] theorem State.setAsz_scrub (v : BitVec 2) : (s.setAsz v).scrub = s.scrub := rfl
@[simp] theorem State.setAsz_faults (v : BitVec 2) : (s.setAsz v).faults = s.faults := rfl
@[simp] theorem State.setAsz_spareCtrl (v : BitVec 2) : (s.setAsz v).spareCtrl = s.spareCtrl := rfl
@[simp] theorem State.setAsz_mig (v : BitVec 2) : (s.setAsz v).mig = s.mig := rfl
@[simp] theorem State.setAsz_events (v : BitVec 2) : (s.setAsz v).events = s.events := rfl
@[simp] theorem State.setAsz_irq (v : BitVec 2) : (s.setAsz v).irq = s.irq := rfl
@[simp] theorem State.setAsz_dev (v : BitVec 2) : (s.setAsz v).dev = s.dev := rfl
@[simp] theorem State.setAsz_diag (v : BitVec 2) : (s.setAsz v).diag = s.diag := rfl
@[simp] theorem State.setAsz_cmd (v : BitVec 2) : (s.setAsz v).cmd = s.cmd := rfl
@[simp] theorem State.setAsz_host (v : BitVec 2) : (s.setAsz v).host = s.host := rfl
@[simp] theorem State.setAsz_table (v : BitVec 2) : (s.setAsz v).table = s.table := rfl
@[simp] theorem State.setAsz_choices (v : BitVec 2) : (s.setAsz v).choices = s.choices := rfl
@[simp] theorem State.setAsz_pending (v : BitVec 2) : (s.setAsz v).pending = s.pending := rfl

/-! ### popEvent -/

@[simp] theorem State.popEvent_pins : (s.popEvent).pins = s.pins := rfl
@[simp] theorem State.popEvent_pCode : (s.popEvent).pCode = s.pCode := rfl
@[simp] theorem State.popEvent_array : (s.popEvent).array = s.array := rfl
@[simp] theorem State.popEvent_map : (s.popEvent).map = s.map := rfl
@[simp] theorem State.popEvent_dir : (s.popEvent).dir = s.dir := rfl
@[simp] theorem State.popEvent_mount : (s.popEvent).mount = s.mount := rfl
@[simp] theorem State.popEvent_filler : (s.popEvent).filler = s.filler := rfl
@[simp] theorem State.popEvent_chans : (s.popEvent).chans = s.chans := rfl
@[simp] theorem State.popEvent_nextPos : (s.popEvent).nextPos = s.nextPos := rfl
@[simp] theorem State.popEvent_port : (s.popEvent).port = s.port := rfl
@[simp] theorem State.popEvent_scrub : (s.popEvent).scrub = s.scrub := rfl
@[simp] theorem State.popEvent_faults : (s.popEvent).faults = s.faults := rfl
@[simp] theorem State.popEvent_spareCtrl : (s.popEvent).spareCtrl = s.spareCtrl := rfl
@[simp] theorem State.popEvent_mig : (s.popEvent).mig = s.mig := rfl
@[simp] theorem State.popEvent_events : (s.popEvent).events = s.events.pop := rfl
@[simp] theorem State.popEvent_irq : (s.popEvent).irq = s.irq := rfl
@[simp] theorem State.popEvent_dev : (s.popEvent).dev = s.dev := rfl
@[simp] theorem State.popEvent_diag : (s.popEvent).diag = s.diag := rfl
@[simp] theorem State.popEvent_cmd : (s.popEvent).cmd = s.cmd := rfl
@[simp] theorem State.popEvent_host : (s.popEvent).host = s.host := rfl
@[simp] theorem State.popEvent_table : (s.popEvent).table = s.table := rfl
@[simp] theorem State.popEvent_choices : (s.popEvent).choices = s.choices := rfl
@[simp] theorem State.popEvent_pending : (s.popEvent).pending = s.pending := rfl

/-! ### startRange -/

@[simp] theorem State.startRange_pins (first last : Block) : (s.startRange first last).pins = s.pins := rfl
@[simp] theorem State.startRange_pCode (first last : Block) : (s.startRange first last).pCode = s.pCode := rfl
@[simp] theorem State.startRange_array (first last : Block) : (s.startRange first last).array = s.array := rfl
@[simp] theorem State.startRange_map (first last : Block) : (s.startRange first last).map = s.map := rfl
@[simp] theorem State.startRange_dir (first last : Block) : (s.startRange first last).dir = s.dir := rfl
@[simp] theorem State.startRange_mount (first last : Block) : (s.startRange first last).mount = s.mount := rfl
@[simp] theorem State.startRange_filler (first last : Block) : (s.startRange first last).filler = s.filler := rfl
@[simp] theorem State.startRange_chans (first last : Block) : (s.startRange first last).chans = s.chans := rfl
@[simp] theorem State.startRange_nextPos (first last : Block) : (s.startRange first last).nextPos = s.nextPos := rfl
@[simp] theorem State.startRange_port (first last : Block) : (s.startRange first last).port = s.port := rfl
@[simp] theorem State.startRange_scrub (first last : Block) :
    (s.startRange first last).scrub = { s.scrub with range := some { first := first, last := last, cursor := wordAddr first 0 } } := rfl
@[simp] theorem State.startRange_faults (first last : Block) : (s.startRange first last).faults = s.faults := rfl
@[simp] theorem State.startRange_spareCtrl (first last : Block) : (s.startRange first last).spareCtrl = s.spareCtrl := rfl
@[simp] theorem State.startRange_mig (first last : Block) : (s.startRange first last).mig = s.mig := rfl
@[simp] theorem State.startRange_events (first last : Block) : (s.startRange first last).events = s.events := rfl
@[simp] theorem State.startRange_irq (first last : Block) : (s.startRange first last).irq = s.irq := rfl
@[simp] theorem State.startRange_dev (first last : Block) : (s.startRange first last).dev = s.dev := rfl
@[simp] theorem State.startRange_diag (first last : Block) : (s.startRange first last).diag = s.diag := rfl
@[simp] theorem State.startRange_cmd (first last : Block) : (s.startRange first last).cmd = s.cmd := rfl
@[simp] theorem State.startRange_host (first last : Block) : (s.startRange first last).host = s.host := rfl
@[simp] theorem State.startRange_table (first last : Block) : (s.startRange first last).table = s.table := rfl
@[simp] theorem State.startRange_choices (first last : Block) : (s.startRange first last).choices = s.choices := rfl
@[simp] theorem State.startRange_pending (first last : Block) : (s.startRange first last).pending = s.pending := rfl

/-! ### startMount -/

@[simp] theorem State.startMount_pins : (s.startMount).pins = s.pins := rfl
@[simp] theorem State.startMount_pCode : (s.startMount).pCode = s.pCode := rfl
@[simp] theorem State.startMount_array : (s.startMount).array = s.array := rfl
@[simp] theorem State.startMount_map : (s.startMount).map = BlockMap.empty := rfl
@[simp] theorem State.startMount_dir : (s.startMount).dir = CommitUnit.reset := rfl
@[simp] theorem State.startMount_mount : (s.startMount).mount = MountReader.start := rfl
@[simp] theorem State.startMount_filler : (s.startMount).filler = none := rfl
@[simp] theorem State.startMount_chans : (s.startMount).chans = s.chans := rfl
@[simp] theorem State.startMount_nextPos : (s.startMount).nextPos = s.nextPos := rfl
@[simp] theorem State.startMount_port : (s.startMount).port = s.port := rfl
@[simp] theorem State.startMount_scrub : (s.startMount).scrub = { s.scrub with ticks := 0 } := rfl
@[simp] theorem State.startMount_faults : (s.startMount).faults = FaultTable.empty := rfl
@[simp] theorem State.startMount_spareCtrl : (s.startMount).spareCtrl = s.spareCtrl := rfl
@[simp] theorem State.startMount_mig : (s.startMount).mig = { s.mig with queue := [], flight := none } := rfl
@[simp] theorem State.startMount_events : (s.startMount).events = s.events := rfl
@[simp] theorem State.startMount_irq : (s.startMount).irq = s.irq := rfl
@[simp] theorem State.startMount_dev : (s.startMount).dev = { s.dev with state := .mounting } := rfl
@[simp] theorem State.startMount_diag : (s.startMount).diag = s.diag := rfl
@[simp] theorem State.startMount_cmd : (s.startMount).cmd = s.cmd := rfl
@[simp] theorem State.startMount_host : (s.startMount).host = s.host := rfl
@[simp] theorem State.startMount_table : (s.startMount).table = s.table := rfl
@[simp] theorem State.startMount_choices : (s.startMount).choices = s.choices := rfl
@[simp] theorem State.startMount_pending : (s.startMount).pending = s.pending := rfl

/-! ### mapActivate -/

@[simp] theorem State.mapActivate_pins (m : Migration) : (s.mapActivate m).pins = s.pins := rfl
@[simp] theorem State.mapActivate_pCode (m : Migration) : (s.mapActivate m).pCode = s.pCode := rfl
@[simp] theorem State.mapActivate_array (m : Migration) : (s.mapActivate m).array = s.array := rfl
@[simp] theorem State.mapActivate_dir (m : Migration) : (s.mapActivate m).dir = s.dir := rfl
@[simp] theorem State.mapActivate_mount (m : Migration) : (s.mapActivate m).mount = s.mount := rfl
@[simp] theorem State.mapActivate_filler (m : Migration) : (s.mapActivate m).filler = s.filler := rfl
@[simp] theorem State.mapActivate_chans (m : Migration) : (s.mapActivate m).chans = s.chans := rfl
@[simp] theorem State.mapActivate_nextPos (m : Migration) : (s.mapActivate m).nextPos = s.nextPos := rfl
@[simp] theorem State.mapActivate_port (m : Migration) : (s.mapActivate m).port = s.port := rfl
@[simp] theorem State.mapActivate_scrub (m : Migration) : (s.mapActivate m).scrub = s.scrub := rfl
@[simp] theorem State.mapActivate_faults (m : Migration) : (s.mapActivate m).faults = s.faults := rfl
@[simp] theorem State.mapActivate_spareCtrl (m : Migration) : (s.mapActivate m).spareCtrl = s.spareCtrl := rfl
@[simp] theorem State.mapActivate_mig (m : Migration) : (s.mapActivate m).mig = s.mig := rfl
@[simp] theorem State.mapActivate_events (m : Migration) : (s.mapActivate m).events = s.events := rfl
@[simp] theorem State.mapActivate_irq (m : Migration) : (s.mapActivate m).irq = s.irq := rfl
@[simp] theorem State.mapActivate_dev (m : Migration) : (s.mapActivate m).dev = s.dev := rfl
@[simp] theorem State.mapActivate_diag (m : Migration) : (s.mapActivate m).diag = s.diag := rfl
@[simp] theorem State.mapActivate_cmd (m : Migration) : (s.mapActivate m).cmd = s.cmd := rfl
@[simp] theorem State.mapActivate_host (m : Migration) : (s.mapActivate m).host = s.host := rfl
@[simp] theorem State.mapActivate_table (m : Migration) : (s.mapActivate m).table = s.table := rfl
@[simp] theorem State.mapActivate_choices (m : Migration) : (s.mapActivate m).choices = s.choices := rfl
@[simp] theorem State.mapActivate_pending (m : Migration) : (s.mapActivate m).pending = s.pending := rfl

/-! ### writeIrqEnable -/

@[simp] theorem State.writeIrqEnable_pins (v : Half) : (s.writeIrqEnable v).pins = s.pins := rfl
@[simp] theorem State.writeIrqEnable_pCode (v : Half) : (s.writeIrqEnable v).pCode = s.pCode := rfl
@[simp] theorem State.writeIrqEnable_array (v : Half) : (s.writeIrqEnable v).array = s.array := rfl
@[simp] theorem State.writeIrqEnable_map (v : Half) : (s.writeIrqEnable v).map = s.map := rfl
@[simp] theorem State.writeIrqEnable_dir (v : Half) : (s.writeIrqEnable v).dir = s.dir := rfl
@[simp] theorem State.writeIrqEnable_mount (v : Half) : (s.writeIrqEnable v).mount = s.mount := rfl
@[simp] theorem State.writeIrqEnable_filler (v : Half) : (s.writeIrqEnable v).filler = s.filler := rfl
@[simp] theorem State.writeIrqEnable_chans (v : Half) : (s.writeIrqEnable v).chans = s.chans := rfl
@[simp] theorem State.writeIrqEnable_nextPos (v : Half) : (s.writeIrqEnable v).nextPos = s.nextPos := rfl
@[simp] theorem State.writeIrqEnable_port (v : Half) : (s.writeIrqEnable v).port = s.port := rfl
@[simp] theorem State.writeIrqEnable_scrub (v : Half) : (s.writeIrqEnable v).scrub = s.scrub := rfl
@[simp] theorem State.writeIrqEnable_faults (v : Half) : (s.writeIrqEnable v).faults = s.faults := rfl
@[simp] theorem State.writeIrqEnable_spareCtrl (v : Half) : (s.writeIrqEnable v).spareCtrl = s.spareCtrl := rfl
@[simp] theorem State.writeIrqEnable_mig (v : Half) : (s.writeIrqEnable v).mig = s.mig := rfl
@[simp] theorem State.writeIrqEnable_events (v : Half) : (s.writeIrqEnable v).events = s.events := rfl
@[simp] theorem State.writeIrqEnable_irq (v : Half) :
    (s.writeIrqEnable v).irq = { s.irq with enable := v.extractLsb' 0 7 } := rfl
@[simp] theorem State.writeIrqEnable_dev (v : Half) : (s.writeIrqEnable v).dev = s.dev := rfl
@[simp] theorem State.writeIrqEnable_diag (v : Half) : (s.writeIrqEnable v).diag = s.diag := rfl
@[simp] theorem State.writeIrqEnable_cmd (v : Half) : (s.writeIrqEnable v).cmd = s.cmd := rfl
@[simp] theorem State.writeIrqEnable_host (v : Half) : (s.writeIrqEnable v).host = s.host := rfl
@[simp] theorem State.writeIrqEnable_table (v : Half) : (s.writeIrqEnable v).table = s.table := rfl
@[simp] theorem State.writeIrqEnable_choices (v : Half) : (s.writeIrqEnable v).choices = s.choices := rfl
@[simp] theorem State.writeIrqEnable_pending (v : Half) : (s.writeIrqEnable v).pending = s.pending := rfl

/-! ### writeTableSelect -/

@[simp] theorem State.writeTableSelect_pins (v : Half) : (s.writeTableSelect v).pins = s.pins := rfl
@[simp] theorem State.writeTableSelect_pCode (v : Half) : (s.writeTableSelect v).pCode = s.pCode := rfl
@[simp] theorem State.writeTableSelect_array (v : Half) : (s.writeTableSelect v).array = s.array := rfl
@[simp] theorem State.writeTableSelect_map (v : Half) : (s.writeTableSelect v).map = s.map := rfl
@[simp] theorem State.writeTableSelect_dir (v : Half) : (s.writeTableSelect v).dir = s.dir := rfl
@[simp] theorem State.writeTableSelect_mount (v : Half) : (s.writeTableSelect v).mount = s.mount := rfl
@[simp] theorem State.writeTableSelect_filler (v : Half) : (s.writeTableSelect v).filler = s.filler := rfl
@[simp] theorem State.writeTableSelect_chans (v : Half) : (s.writeTableSelect v).chans = s.chans := rfl
@[simp] theorem State.writeTableSelect_nextPos (v : Half) : (s.writeTableSelect v).nextPos = s.nextPos := rfl
@[simp] theorem State.writeTableSelect_port (v : Half) : (s.writeTableSelect v).port = s.port := rfl
@[simp] theorem State.writeTableSelect_scrub (v : Half) : (s.writeTableSelect v).scrub = s.scrub := rfl
@[simp] theorem State.writeTableSelect_faults (v : Half) : (s.writeTableSelect v).faults = s.faults := rfl
@[simp] theorem State.writeTableSelect_spareCtrl (v : Half) : (s.writeTableSelect v).spareCtrl = s.spareCtrl := rfl
@[simp] theorem State.writeTableSelect_mig (v : Half) : (s.writeTableSelect v).mig = s.mig := rfl
@[simp] theorem State.writeTableSelect_events (v : Half) : (s.writeTableSelect v).events = s.events := rfl
@[simp] theorem State.writeTableSelect_irq (v : Half) : (s.writeTableSelect v).irq = s.irq := rfl
@[simp] theorem State.writeTableSelect_dev (v : Half) : (s.writeTableSelect v).dev = s.dev := rfl
@[simp] theorem State.writeTableSelect_diag (v : Half) : (s.writeTableSelect v).diag = s.diag := rfl
@[simp] theorem State.writeTableSelect_cmd (v : Half) : (s.writeTableSelect v).cmd = s.cmd := rfl
@[simp] theorem State.writeTableSelect_host (v : Half) : (s.writeTableSelect v).host = s.host := rfl
@[simp] theorem State.writeTableSelect_choices (v : Half) : (s.writeTableSelect v).choices = s.choices := rfl
@[simp] theorem State.writeTableSelect_pending (v : Half) : (s.writeTableSelect v).pending = s.pending := rfl

/-! ### writeArg0 -/

@[simp] theorem State.writeArg0_pins (v : Half) : (s.writeArg0 v).pins = s.pins := rfl
@[simp] theorem State.writeArg0_pCode (v : Half) : (s.writeArg0 v).pCode = s.pCode := rfl
@[simp] theorem State.writeArg0_array (v : Half) : (s.writeArg0 v).array = s.array := rfl
@[simp] theorem State.writeArg0_map (v : Half) : (s.writeArg0 v).map = s.map := rfl
@[simp] theorem State.writeArg0_dir (v : Half) : (s.writeArg0 v).dir = s.dir := rfl
@[simp] theorem State.writeArg0_mount (v : Half) : (s.writeArg0 v).mount = s.mount := rfl
@[simp] theorem State.writeArg0_filler (v : Half) : (s.writeArg0 v).filler = s.filler := rfl
@[simp] theorem State.writeArg0_chans (v : Half) : (s.writeArg0 v).chans = s.chans := rfl
@[simp] theorem State.writeArg0_nextPos (v : Half) : (s.writeArg0 v).nextPos = s.nextPos := rfl
@[simp] theorem State.writeArg0_port (v : Half) : (s.writeArg0 v).port = s.port := rfl
@[simp] theorem State.writeArg0_scrub (v : Half) : (s.writeArg0 v).scrub = s.scrub := rfl
@[simp] theorem State.writeArg0_faults (v : Half) : (s.writeArg0 v).faults = s.faults := rfl
@[simp] theorem State.writeArg0_spareCtrl (v : Half) : (s.writeArg0 v).spareCtrl = s.spareCtrl := rfl
@[simp] theorem State.writeArg0_mig (v : Half) : (s.writeArg0 v).mig = s.mig := rfl
@[simp] theorem State.writeArg0_events (v : Half) : (s.writeArg0 v).events = s.events := rfl
@[simp] theorem State.writeArg0_irq (v : Half) : (s.writeArg0 v).irq = s.irq := rfl
@[simp] theorem State.writeArg0_dev (v : Half) : (s.writeArg0 v).dev = s.dev := rfl
@[simp] theorem State.writeArg0_diag (v : Half) : (s.writeArg0 v).diag = s.diag := rfl
@[simp] theorem State.writeArg0_cmd (v : Half) : (s.writeArg0 v).cmd = { s.cmd with arg0 := v } := rfl
@[simp] theorem State.writeArg0_host (v : Half) : (s.writeArg0 v).host = s.host := rfl
@[simp] theorem State.writeArg0_table (v : Half) : (s.writeArg0 v).table = s.table := rfl
@[simp] theorem State.writeArg0_choices (v : Half) : (s.writeArg0 v).choices = s.choices := rfl
@[simp] theorem State.writeArg0_pending (v : Half) : (s.writeArg0 v).pending = s.pending := rfl

/-! ### writeArg1 -/

@[simp] theorem State.writeArg1_pins (v : Half) : (s.writeArg1 v).pins = s.pins := rfl
@[simp] theorem State.writeArg1_pCode (v : Half) : (s.writeArg1 v).pCode = s.pCode := rfl
@[simp] theorem State.writeArg1_array (v : Half) : (s.writeArg1 v).array = s.array := rfl
@[simp] theorem State.writeArg1_map (v : Half) : (s.writeArg1 v).map = s.map := rfl
@[simp] theorem State.writeArg1_dir (v : Half) : (s.writeArg1 v).dir = s.dir := rfl
@[simp] theorem State.writeArg1_mount (v : Half) : (s.writeArg1 v).mount = s.mount := rfl
@[simp] theorem State.writeArg1_filler (v : Half) : (s.writeArg1 v).filler = s.filler := rfl
@[simp] theorem State.writeArg1_chans (v : Half) : (s.writeArg1 v).chans = s.chans := rfl
@[simp] theorem State.writeArg1_nextPos (v : Half) : (s.writeArg1 v).nextPos = s.nextPos := rfl
@[simp] theorem State.writeArg1_port (v : Half) : (s.writeArg1 v).port = s.port := rfl
@[simp] theorem State.writeArg1_scrub (v : Half) : (s.writeArg1 v).scrub = s.scrub := rfl
@[simp] theorem State.writeArg1_faults (v : Half) : (s.writeArg1 v).faults = s.faults := rfl
@[simp] theorem State.writeArg1_spareCtrl (v : Half) : (s.writeArg1 v).spareCtrl = s.spareCtrl := rfl
@[simp] theorem State.writeArg1_mig (v : Half) : (s.writeArg1 v).mig = s.mig := rfl
@[simp] theorem State.writeArg1_events (v : Half) : (s.writeArg1 v).events = s.events := rfl
@[simp] theorem State.writeArg1_irq (v : Half) : (s.writeArg1 v).irq = s.irq := rfl
@[simp] theorem State.writeArg1_dev (v : Half) : (s.writeArg1 v).dev = s.dev := rfl
@[simp] theorem State.writeArg1_diag (v : Half) : (s.writeArg1 v).diag = s.diag := rfl
@[simp] theorem State.writeArg1_cmd (v : Half) : (s.writeArg1 v).cmd = { s.cmd with arg1 := v } := rfl
@[simp] theorem State.writeArg1_host (v : Half) : (s.writeArg1 v).host = s.host := rfl
@[simp] theorem State.writeArg1_table (v : Half) : (s.writeArg1 v).table = s.table := rfl
@[simp] theorem State.writeArg1_choices (v : Half) : (s.writeArg1 v).choices = s.choices := rfl
@[simp] theorem State.writeArg1_pending (v : Half) : (s.writeArg1 v).pending = s.pending := rfl

/-! ### writeSpareCtrl -/

@[simp] theorem State.writeSpareCtrl_pins (v : Half) : (s.writeSpareCtrl v).pins = s.pins := rfl
@[simp] theorem State.writeSpareCtrl_pCode (v : Half) : (s.writeSpareCtrl v).pCode = s.pCode := rfl
@[simp] theorem State.writeSpareCtrl_array (v : Half) : (s.writeSpareCtrl v).array = s.array := rfl
@[simp] theorem State.writeSpareCtrl_map (v : Half) : (s.writeSpareCtrl v).map = s.map := rfl
@[simp] theorem State.writeSpareCtrl_dir (v : Half) : (s.writeSpareCtrl v).dir = s.dir := rfl
@[simp] theorem State.writeSpareCtrl_mount (v : Half) : (s.writeSpareCtrl v).mount = s.mount := rfl
@[simp] theorem State.writeSpareCtrl_filler (v : Half) : (s.writeSpareCtrl v).filler = s.filler := rfl
@[simp] theorem State.writeSpareCtrl_chans (v : Half) : (s.writeSpareCtrl v).chans = s.chans := rfl
@[simp] theorem State.writeSpareCtrl_nextPos (v : Half) : (s.writeSpareCtrl v).nextPos = s.nextPos := rfl
@[simp] theorem State.writeSpareCtrl_port (v : Half) : (s.writeSpareCtrl v).port = s.port := rfl
@[simp] theorem State.writeSpareCtrl_scrub (v : Half) : (s.writeSpareCtrl v).scrub = s.scrub := rfl
@[simp] theorem State.writeSpareCtrl_faults (v : Half) : (s.writeSpareCtrl v).faults = s.faults := rfl
@[simp] theorem State.writeSpareCtrl_spareCtrl (v : Half) : (s.writeSpareCtrl v).spareCtrl = spareCtrlOf v := rfl
@[simp] theorem State.writeSpareCtrl_mig (v : Half) : (s.writeSpareCtrl v).mig = s.mig := rfl
@[simp] theorem State.writeSpareCtrl_events (v : Half) : (s.writeSpareCtrl v).events = s.events := rfl
@[simp] theorem State.writeSpareCtrl_irq (v : Half) : (s.writeSpareCtrl v).irq = s.irq := rfl
@[simp] theorem State.writeSpareCtrl_dev (v : Half) : (s.writeSpareCtrl v).dev = s.dev := rfl
@[simp] theorem State.writeSpareCtrl_diag (v : Half) : (s.writeSpareCtrl v).diag = s.diag := rfl
@[simp] theorem State.writeSpareCtrl_cmd (v : Half) : (s.writeSpareCtrl v).cmd = s.cmd := rfl
@[simp] theorem State.writeSpareCtrl_host (v : Half) : (s.writeSpareCtrl v).host = s.host := rfl
@[simp] theorem State.writeSpareCtrl_table (v : Half) : (s.writeSpareCtrl v).table = s.table := rfl
@[simp] theorem State.writeSpareCtrl_choices (v : Half) : (s.writeSpareCtrl v).choices = s.choices := rfl
@[simp] theorem State.writeSpareCtrl_pending (v : Half) : (s.writeSpareCtrl v).pending = s.pending := rfl

/-! ### writeDiag -/

@[simp] theorem State.writeDiag_pins (v : Half) : (s.writeDiag v).pins = s.pins := rfl
@[simp] theorem State.writeDiag_pCode (v : Half) : (s.writeDiag v).pCode = s.pCode := rfl
@[simp] theorem State.writeDiag_array (v : Half) : (s.writeDiag v).array = s.array := rfl
@[simp] theorem State.writeDiag_map (v : Half) : (s.writeDiag v).map = s.map := rfl
@[simp] theorem State.writeDiag_dir (v : Half) : (s.writeDiag v).dir = s.dir := rfl
@[simp] theorem State.writeDiag_mount (v : Half) : (s.writeDiag v).mount = s.mount := rfl
@[simp] theorem State.writeDiag_filler (v : Half) : (s.writeDiag v).filler = s.filler := rfl
@[simp] theorem State.writeDiag_chans (v : Half) : (s.writeDiag v).chans = s.chans := rfl
@[simp] theorem State.writeDiag_nextPos (v : Half) : (s.writeDiag v).nextPos = s.nextPos := rfl
@[simp] theorem State.writeDiag_port (v : Half) : (s.writeDiag v).port = s.port := rfl
@[simp] theorem State.writeDiag_scrub (v : Half) : (s.writeDiag v).scrub = s.scrub := rfl
@[simp] theorem State.writeDiag_faults (v : Half) : (s.writeDiag v).faults = s.faults := rfl
@[simp] theorem State.writeDiag_spareCtrl (v : Half) : (s.writeDiag v).spareCtrl = s.spareCtrl := rfl
@[simp] theorem State.writeDiag_mig (v : Half) : (s.writeDiag v).mig = s.mig := rfl
@[simp] theorem State.writeDiag_events (v : Half) : (s.writeDiag v).events = s.events := rfl
@[simp] theorem State.writeDiag_irq (v : Half) : (s.writeDiag v).irq = s.irq := rfl
@[simp] theorem State.writeDiag_dev (v : Half) : (s.writeDiag v).dev = s.dev := rfl
@[simp] theorem State.writeDiag_diag (v : Half) : (s.writeDiag v).diag = diagOf v := rfl
@[simp] theorem State.writeDiag_cmd (v : Half) : (s.writeDiag v).cmd = s.cmd := rfl
@[simp] theorem State.writeDiag_host (v : Half) : (s.writeDiag v).host = s.host := rfl
@[simp] theorem State.writeDiag_table (v : Half) : (s.writeDiag v).table = s.table := rfl
@[simp] theorem State.writeDiag_choices (v : Half) : (s.writeDiag v).choices = s.choices := rfl
@[simp] theorem State.writeDiag_pending (v : Half) : (s.writeDiag v).pending = s.pending := rfl

/-! ### writeScrubPeriod -/

@[simp] theorem State.writeScrubPeriod_pins (v : Half) : (s.writeScrubPeriod v).pins = s.pins := rfl
@[simp] theorem State.writeScrubPeriod_pCode (v : Half) : (s.writeScrubPeriod v).pCode = s.pCode := rfl
@[simp] theorem State.writeScrubPeriod_array (v : Half) : (s.writeScrubPeriod v).array = s.array := rfl
@[simp] theorem State.writeScrubPeriod_map (v : Half) : (s.writeScrubPeriod v).map = s.map := rfl
@[simp] theorem State.writeScrubPeriod_dir (v : Half) : (s.writeScrubPeriod v).dir = s.dir := rfl
@[simp] theorem State.writeScrubPeriod_mount (v : Half) : (s.writeScrubPeriod v).mount = s.mount := rfl
@[simp] theorem State.writeScrubPeriod_filler (v : Half) : (s.writeScrubPeriod v).filler = s.filler := rfl
@[simp] theorem State.writeScrubPeriod_chans (v : Half) : (s.writeScrubPeriod v).chans = s.chans := rfl
@[simp] theorem State.writeScrubPeriod_nextPos (v : Half) : (s.writeScrubPeriod v).nextPos = s.nextPos := rfl
@[simp] theorem State.writeScrubPeriod_port (v : Half) : (s.writeScrubPeriod v).port = s.port := rfl
@[simp] theorem State.writeScrubPeriod_scrub (v : Half) :
    (s.writeScrubPeriod v).scrub = { s.scrub with period := v, ticks := 0 } := rfl
@[simp] theorem State.writeScrubPeriod_faults (v : Half) : (s.writeScrubPeriod v).faults = s.faults := rfl
@[simp] theorem State.writeScrubPeriod_spareCtrl (v : Half) : (s.writeScrubPeriod v).spareCtrl = s.spareCtrl := rfl
@[simp] theorem State.writeScrubPeriod_mig (v : Half) : (s.writeScrubPeriod v).mig = s.mig := rfl
@[simp] theorem State.writeScrubPeriod_events (v : Half) : (s.writeScrubPeriod v).events = s.events := rfl
@[simp] theorem State.writeScrubPeriod_irq (v : Half) : (s.writeScrubPeriod v).irq = s.irq := rfl
@[simp] theorem State.writeScrubPeriod_dev (v : Half) : (s.writeScrubPeriod v).dev = s.dev := rfl
@[simp] theorem State.writeScrubPeriod_diag (v : Half) : (s.writeScrubPeriod v).diag = s.diag := rfl
@[simp] theorem State.writeScrubPeriod_cmd (v : Half) : (s.writeScrubPeriod v).cmd = s.cmd := rfl
@[simp] theorem State.writeScrubPeriod_host (v : Half) : (s.writeScrubPeriod v).host = s.host := rfl
@[simp] theorem State.writeScrubPeriod_table (v : Half) : (s.writeScrubPeriod v).table = s.table := rfl
@[simp] theorem State.writeScrubPeriod_choices (v : Half) : (s.writeScrubPeriod v).choices = s.choices := rfl
@[simp] theorem State.writeScrubPeriod_pending (v : Half) : (s.writeScrubPeriod v).pending = s.pending := rfl

/-! ### Channels of an updated state -/

@[simp] theorem State.setChan_chan_self (n : Fin 4) (c : Channel) : (s.setChan n c).chan n = c := by
  simp [State.chan]

theorem State.setChan_chan_of_ne {n m : Fin 4} (h : m ≠ n) (c : Channel) : (s.setChan n c).chan m = s.chan m := by
  simp only [State.chan, State.setChan, Fin.getElem_fin]
  exact Vector.getElem_set_ne _ _ fun e => h (Fin.ext e.symm)

theorem State.setChan_chan (n m : Fin 4) (c : Channel) :
    (s.setChan n c).chan m = if m = n then c else s.chan m := by
  by_cases h : m = n
  · subst h; simp
  · simp [h, State.setChan_chan_of_ne]

@[simp] theorem State.setChan_setChan (n : Fin 4) (c d : Channel) : (s.setChan n c).setChan n d = s.setChan n d := by
  simp [State.setChan]

@[simp] theorem State.setChan_eq_self (n : Fin 4) : s.setChan n (s.chan n) = s := by
  simp [State.setChan, State.chan]

/-- Two states agree in every channel when their channel vectors are equal. -/
theorem chans_ext {v w : Vector Channel 4} (h : ∀ n : Fin 4, v[n] = w[n]) : v = w := by
  apply Vector.ext
  intro i hi
  exact h ⟨i, hi⟩

end Sys2Proof.Machine
end

