-- ==== Sys2Proof/Laws/Ops.lean ====
section
/-! SUPPORT. One lemma for each shared operation: what it can do, under the conditions of Safety.lean. -/

namespace Sys2Proof.Machine

/-! ### Bus cycles -/

/-- A write cycle is taken with the latch emptied, or leaves the state as it is. -/
theorem State.hostWrite_cases (s : State) (f : State → State) : s.hostWrite f = f s.latched ∨ s.hostWrite f = s := by
  unfold State.hostWrite; split
  · exact .inr rfl
  · exact .inl rfl

theorem State.hostWrite_free {s : State} (h : s.busFree) (f : State → State) : s.hostWrite f = f s.latched := by
  have k : (s.waitPin || s.dev.inReset) = false := by simp [State.waitPin, h.1, h.2]
  simp only [State.hostWrite, k]; rfl

theorem State.hostRead_free {s : State} (h : s.busFree) (f : State → State) : s.hostRead f = f s.latched := by
  have k : s.waitPin = false := by simp [State.waitPin, h.1]
  simp only [State.hostRead, k]; rfl

theorem State.busWrite_free {s : State} (h : s.busFree) (a : BitVec 6) (v : Half) :
    s.busWrite a v = s.latched.writeRegister a v := State.hostWrite_free h _

theorem State.settleHeld_none {s : State} (h : s.host.held = none) : s.settleHeld = s := by
  simp [State.settleHeld, h]

theorem State.endHeld_none {s : State} (h : s.host.held = none) : s.endHeld = s := by
  simp [State.endHeld, h]

/-! ### The end of FORMAT and the array lines -/

/-- FORMAT leaves the fault table empty, whatever its result and whatever came into it before. -/
theorem State.endFormat_faults (s : State) (f : Filler) : (s.endFormat f).faults = FaultTable.empty := by
  unfold State.endFormat
  dsimp only
  split <;> rfl

/-- An open of a channel that is not CLOSED is refused for that reason, in every device state. -/
theorem State.openCheck_notClosed (s : State) {c : Channel} (h : c.state ≠ .closed) :
    s.openCheck c = some .notClosed := by
  simp [State.openCheck, h]

/-- With a grant in progress a reset event completes it; with none it leaves the array lines idle. -/
theorem State.lastGrant_some {s : State} {g : Grant} (h : s.port.grant = some g) : s.lastGrant = s.completeGrant := by
  simp [State.lastGrant, h]

theorem State.lastGrant_none {s : State} (h : s.port.grant = none) : s.lastGrant = s.clearAccesses := by
  simp [State.lastGrant, h]

/-- The array lines are idle after any list of accesses. -/
theorem pinsOver_last (l : List ArrayAccess) : (pinsOver l).getLastD ArrayPins.idle = ArrayPins.idle := by
  induction l with
  | nil => rfl
  | cons x l ih => cases l <;> simp_all [pinsOver, List.getLastD, List.getLast]

/-! ### What the scrub engine passes over -/

theorem State.scrubSettle_holds {s : State} (h : s.scrub.holds = true) : s.scrubSettle = s := by
  simp [State.scrubSettle, h]

theorem skipBlocks_none {s : State} (h : s.scrub.range = none) (n : Nat) : skipBlocks n s = s := by
  cases n <;> simp [skipBlocks, h]

theorem skipSlices_of_served {s : State} (h : s.skipped s.scrub.block = false) (n : Nat) : skipSlices n s = s := by
  cases n <;> simp [skipSlices, h]

/-- With no range run, nothing is passed over while the cursor stands in a block that is visited. -/
theorem State.scrubSettle_served {s : State} (h : s.scrub.range = none) (k : s.skipped s.scrub.block = false) :
    s.scrubSettle = s := by
  simp [State.scrubSettle, State.rangeFuel, skipBlocks_none h, skipSlices_of_served k]

/-- With no range run, nothing is passed over without a credit. -/
theorem State.scrubSettle_spent {s : State} (h : s.scrub.range = none) (k : s.scrub.backlog = 0) :
    s.scrubSettle = s := by
  simp [State.scrubSettle, State.rangeFuel, skipBlocks_none h, k, skipSlices]

/-! ### The end of a grant and the steps outside one -/

theorem State.rangeEvent_quiet {s : State} (h : s.rangeRuns = false) (f : State → State) : s.rangeEvent f = f s := by
  unfold State.rangeRuns at h
  unfold State.rangeEvent
  split at h <;> simp_all

theorem State.fenceIfDue_running {s : State} (h : s.port.stopped = false) : s.fenceIfDue = s := by
  simp [State.fenceIfDue, State.fenceDue, h]

/-- The end of a grant with its requester's effect alone. -/
theorem State.finish_quiet {s : State} (h : s.rangeRuns = false) {f : State → State}
    (hs : (f s.clearGrant).port.stopped = false) (hr : (f s.clearGrant).scrub.range = none)
    (hk : (f s.clearGrant).skipped (f s.clearGrant).scrub.block = false) : s.finish f = f s.clearGrant := by
  have : s.clearGrant.rangeRuns = false := h
  simp only [State.finish, State.rangeEvent_quiet this, State.scrubSettle_served hr hk, State.fenceIfDue_running hs]

theorem State.withSettle_quiet {s : State} (h : s.rangeRuns = false) (f : State → State) :
    s.withSettle f = (f s).scrubSettle := State.rangeEvent_quiet h _

/-- The end of a grant whose kind a row names. -/
theorem State.completeKind_of {s : State} {g : Grant} {k : Grant → Bool} (h : s.port.grant = some g) (hk : k g = true) :
    s.completeKind k = s.finish fun x => x.completion g := by
  simp [State.completeKind, State.completeGrant, h, hk]

/-- A completion row that finds no grant in progress is not due. -/
theorem State.completeKind_none {s : State} (h : s.port.grant = none) (k : Grant → Bool) : s.completeKind k = s := by
  simp [State.completeKind, h]

/-! ### A free order -/

theorem State.eitherWay_cases (s : State) (f g : State → State) :
    s.eitherWay f g = g (f { s with choices := s.choices + 1 }) ∨
      s.eitherWay f g = f (g { s with choices := s.choices + 1 }) := by
  unfold State.eitherWay; simp only; split
  · exact .inl rfl
  · exact .inr rfl

theorem State.withReport_none (s : State) (f : State → State) : s.withReport none f = f s := rfl

/-! ### Decoding the forms the part writes -/

@[simp] theorem decodeWord_fresh (d : Word) :
    decodeWord (freshWord d) = { cls := .clean, correctedFlag := false, data := d, tag := false } := by
  have h : syndrome (freshWord d) = 0 := syndrome_of_valid rfl
  simp [decodeWord, h]; rfl

@[simp] theorem decodeWord_poisoned :
    decodeWord poisonedWord = { cls := .poisoned, correctedFlag := false, data := 0, tag := true } := by
  have h : syndrome poisonedWord = 0 := syndrome_of_valid rfl
  simp [decodeWord, h]; rfl

end Sys2Proof.Machine
end

