-- ==== Sys2Proof/Laws/PerInstr.lean ====
section
/-! SUPPORT. The family Row: what is said of every command as syntax, one lemma per constructor. -/

namespace Sys2Proof.Laws

/-- The table gives the row no bits: no word spells the command (Decode.lean). -/
def Row.Statement (i : Instr) : Prop := ∀ nbits w, decodeTableWord nbits w ≠ some i

theorem Row.of_any (i : Instr) : Row.Statement i := by simp [Row.Statement, decodeTableWord]

theorem Row.powerOn (asz : BitVec 2) (nReset nPfail : Bool) : Row.Statement (.powerOn asz nReset nPfail) := Row.of_any _
theorem Row.nresetAssert : Row.Statement .nresetAssert := Row.of_any _
theorem Row.nresetRelease (asz : BitVec 2) : Row.Statement (.nresetRelease asz) := Row.of_any _
theorem Row.npfailAssert : Row.Statement .npfailAssert := Row.of_any _
theorem Row.enterFenced : Row.Statement .enterFenced := Row.of_any _
theorem Row.npfailRelease (asz : BitVec 2) : Row.Statement (.npfailRelease asz) := Row.of_any _
theorem Row.channelSettingsLoad (n : Fin 4) (v : Half) : Row.Statement (.channelSettingsLoad n v) := Row.of_any _
theorem Row.channelOpen (n : Fin 4) (v : Half) : Row.Statement (.channelOpen n v) := Row.of_any _
theorem Row.channelClose (n : Fin 4) (v : Half) : Row.Statement (.channelClose n v) := Row.of_any _
theorem Row.resumeRetry (n : Fin 4) (v : Half) : Row.Statement (.resumeRetry n v) := Row.of_any _
theorem Row.resumeSkip (n : Fin 4) (v : Half) : Row.Statement (.resumeSkip n v) := Row.of_any _
theorem Row.pointerWrite (n : Fin 4) (v : Half) : Row.Statement (.pointerWrite n v) := Row.of_any _
theorem Row.dataLoRead (n : Fin 4) : Row.Statement (.dataLoRead n) := Row.of_any _
theorem Row.dataHiRead (n : Fin 4) : Row.Statement (.dataHiRead n) := Row.of_any _
theorem Row.dataLoWrite (n : Fin 4) (v : Half) : Row.Statement (.dataLoWrite n v) := Row.of_any _
theorem Row.dataHiWrite (n : Fin 4) (v : Half) : Row.Statement (.dataHiWrite n v) := Row.of_any _
theorem Row.statusWrite (n : Fin 4) (v : Half) : Row.Statement (.statusWrite n v) := Row.of_any _
theorem Row.heldCycleEnd : Row.Statement .heldCycleEnd := Row.of_any _
theorem Row.waitLimitExpiry : Row.Statement .waitLimitExpiry := Row.of_any _
theorem Row.drainComplete (n : Fin 4) : Row.Statement (.drainComplete n) := Row.of_any _
theorem Row.format : Row.Statement .format := Row.of_any _
theorem Row.remount : Row.Statement .remount := Row.of_any _
theorem Row.commit : Row.Statement .commit := Row.of_any _
theorem Row.spareBlock : Row.Statement .spareBlock := Row.of_any _
theorem Row.cancelSpare : Row.Statement .cancelSpare := Row.of_any _
theorem Row.scrubRange : Row.Statement .scrubRange := Row.of_any _
theorem Row.clearFaults : Row.Statement .clearFaults := Row.of_any _
theorem Row.softReset : Row.Statement .softReset := Row.of_any _
theorem Row.undefinedCommand (v : Half) : Row.Statement (.undefinedCommand v) := Row.of_any _
theorem Row.commandCompletion : Row.Statement .commandCompletion := Row.of_any _
theorem Row.commandStatusWrite (v : Half) : Row.Statement (.commandStatusWrite v) := Row.of_any _
theorem Row.irqPendingWrite (v : Half) : Row.Statement (.irqPendingWrite v) := Row.of_any _
theorem Row.irqEnableWrite (v : Half) : Row.Statement (.irqEnableWrite v) := Row.of_any _
theorem Row.eventPop (v : Half) : Row.Statement (.eventPop v) := Row.of_any _
theorem Row.tableSelectWrite (v : Half) : Row.Statement (.tableSelectWrite v) := Row.of_any _
theorem Row.pairedRead (r : PairedReg) : Row.Statement (.pairedRead r) := Row.of_any _
theorem Row.scrubCtrlWrite (v : Half) : Row.Statement (.scrubCtrlWrite v) := Row.of_any _
theorem Row.scrubPeriodWrite (v : Half) : Row.Statement (.scrubPeriodWrite v) := Row.of_any _
theorem Row.scrubStatusWrite (v : Half) : Row.Statement (.scrubStatusWrite v) := Row.of_any _
theorem Row.registerWrite (a : BitVec 6) (v : Half) : Row.Statement (.registerWrite a v) := Row.of_any _
theorem Row.scrubTimerExpiry : Row.Statement .scrubTimerExpiry := Row.of_any _
theorem Row.grantDecision : Row.Statement .grantDecision := Row.of_any _
theorem Row.fetchComplete : Row.Statement .fetchComplete := Row.of_any _
theorem Row.wordWriteDone : Row.Statement .wordWriteDone := Row.of_any _
theorem Row.rawWriteDone : Row.Statement .rawWriteDone := Row.of_any _
theorem Row.mergeDone : Row.Statement .mergeDone := Row.of_any _
theorem Row.copyDone : Row.Statement .copyDone := Row.of_any _
theorem Row.verifyReadDone : Row.Statement .verifyReadDone := Row.of_any _
theorem Row.scrubWordDone : Row.Statement .scrubWordDone := Row.of_any _
theorem Row.mountReadDone : Row.Statement .mountReadDone := Row.of_any _
theorem Row.commitWriteDone : Row.Statement .commitWriteDone := Row.of_any _
theorem Row.commitReadbackDone : Row.Statement .commitReadbackDone := Row.of_any _
theorem Row.closingWriteDone : Row.Statement .closingWriteDone := Row.of_any _
theorem Row.commitStart : Row.Statement .commitStart := Row.of_any _
theorem Row.migrationStart : Row.Statement .migrationStart := Row.of_any _
theorem Row.migrationComplete : Row.Statement .migrationComplete := Row.of_any _
theorem Row.fillDone : Row.Statement .fillDone := Row.of_any _
theorem Row.formatCopyGrantDone : Row.Statement .formatCopyGrantDone := Row.of_any _
theorem Row.cellDecay (a : Addr) (bit : BitVec 6) : Row.Statement (.cellDecay a bit) := Row.of_any _
theorem Row.registerRead (a : BitVec 6) : Row.Statement (.registerRead a) := Row.of_any _

end Sys2Proof.Laws
end

