-- ==== Sys2Proof/Tests/Slice0.lean ====
section
/-! SUPPORT. Our own checks: the operands each row refuses, one step of each command, and a state that meets the
hypotheses of each statement. Expected values are the spec's (the rule is named at each test). -/

namespace Sys2Proof.Tests

open Sys2Proof Sys2Proof.Machine

/-! ### Helpers -/

/-- The state after a command. -/
def after (c : Instr) (s : State) : State :=
  match exec c s with
  | .next t => t
  | _ => s

/-- READY with P 512, two FREE spares, L 508. -/
def ready : State :=
  { State.reset with
    map := ⟨true, [.free, .free], []⟩, mount := MountReader.idle, dev := ⟨.ready, .mounted, false, false⟩ }

/-- Another device state. -/
def inState (d : DevState) (s : State) : State := { s with dev := { s.dev with state := d } }

/-- A READ channel in OPEN with window blocks 0 to 1. -/
def reader : Channel := { Channel.reset with state := .opened, winLast := 1 }
/-- A WRITE channel in OPEN with window blocks 0 to 1. -/
def writer : Channel := { reader with mode := .write }
/-- A fetched word. -/
def word (m : Option ReadMark) : ReadEntry := ⟨0, 0x12345678, none, m, some 0⟩
/-- A queued write. -/
def queued (pos : Nat) : WriteEntry := ⟨7, .word 0, pos⟩
/-- Channel 0 replaced. -/
def chan0 (c : Channel) (s : State) : State := s.setChan 0 c
/-- A grant in progress. -/
def granting (g : Grant) (s : State) : State := { s with port := { s.port with grant := some g } }
/-- A held cycle. -/
def holding (h : HeldCycle) (s : State) : State := { s with host := { s.host with held := some h } }
/-- The command in progress. -/
def running (r : Running) (s : State) : State := { s with cmd := { s.cmd with running := some r } }
/-- The command arguments. -/
def args (a b : Half) (s : State) : State := { s with cmd := { s.cmd with arg0 := a, arg1 := b } }
/-- A migration of logical block 3 to spare 0. -/
def moving : Migration :=
  { phase := .copy, lam := 3, source := 3, spare := 0, cursor := 0, poison := 0, attempt := 1, ident := 0 }
/-- READY with a migration in flight. -/
def migrating (m : Migration) : State :=
  { ready with
    map := ⟨true, [.allocated, .free], []⟩, mig := { queue := [], flight := some m, nextId := 1 } }
/-- READY with migration requests waiting. -/
def asked (l : List MigRequest) : State := { ready with mig := { queue := l, flight := none, nextId := 0 } }
/-- A fault record of a block. -/
def faultOf (b : Block) (st : FaultState) : FaultRecord := ⟨b, some 0, 7, 0, 0, .scrub, st⟩
/-- A fault table with one record. -/
def faultTable (r : FaultRecord) : FaultTable :=
  { FaultTable.empty with slots := FaultTable.empty.slots.set 0 (some r), order := [r.phys] }
/-- A fault table full of records of one block. -/
def fullTable (r : FaultRecord) : FaultTable :=
  { FaultTable.empty with slots := Vector.replicate 32 (some r), order := [r.phys] }
/-- A full fault table with one record at slot 31 that is not like the rest. -/
def oddTable (r : FaultRecord) : FaultTable :=
  { FaultTable.empty with
    slots := (Vector.replicate 32 (some (faultOf 1 .queued))).set 31 (some r), order := [1, r.phys] }
/-- READY with logical block 3 on spare 0. -/
def remapped : State := { ready with map := ⟨true, [.inUse, .free], [⟨3, 0⟩]⟩ }
/-- A stored codeword. -/
def stored (a : Nat) (c : Codeword) (s : State) : State := { s with array := s.array.put a c }
/-- A directory record with the map of `ready`. -/
def record : Snapshot := { gen := 1, blocks := 512, entries := [], spares := [.free, .free], included := none }
/-- READY with a commit of `record` in progress. -/
def committing (st : CommitState) (w : BitVec 8) (attempt : Nat) : State :=
  { ready with
    dir := { CommitUnit.reset with
      state := st, word := w, attempt := attempt, target := some .a, snapshot := some record } }
/-- FORMATTING with the filler at a place. -/
def filling (f : Filler) : State := { inState .formatting ready with filler := some f }
/-- Events waiting. -/
def posted (n : Nat) (lost : BitVec 8) (s : State) : State :=
  { s with events := ⟨List.replicate n (commandDoneRecord 0x31 .ok), lost⟩ }
/-- The scrub engine changed. -/
def scrubbing (f : Scrub → Scrub) (s : State) : State := { s with scrub := f s.scrub }

/-! ### WellFormed: an ill-formed term for each check, refused -/

theorem test_wf_settings_load : (Instr.channelSettingsLoad 0 0x0100).wellFormed = false := by decide
theorem test_wf_close : (Instr.channelClose 1 0x0100).wellFormed = false := by decide
theorem test_wf_open : (Instr.channelOpen 2 0x0000).wellFormed = false := by decide
theorem test_wf_retry : (Instr.resumeRetry 3 0x0500).wellFormed = false := by decide
theorem test_wf_retry_open : (Instr.resumeRetry 3 0x0200).wellFormed = false := by decide
theorem test_wf_skip : (Instr.resumeSkip 0 0x0300).wellFormed = false := by decide
theorem test_wf_skip_open : (Instr.resumeSkip 0 0x0400).wellFormed = false := by decide
theorem test_wf_undefined_command : (Instr.undefinedCommand 0x0041).wellFormed = false := by decide
theorem test_wf_register_write : (Instr.registerWrite 0x02 0).wellFormed = false := by decide
theorem test_wf_register_write_data : (Instr.registerWrite 0x2F 0).wellFormed = false := by decide
theorem test_wf_register_read : (Instr.registerRead 0x38).wellFormed = false := by decide
theorem test_wf_register_read_data : (Instr.registerRead 0x16).wellFormed = false := by decide
theorem test_wf_cell_decay : (Instr.cellDecay 0 40).wellFormed = false := by decide
theorem test_wf_accepts : (Instr.cellDecay 0 39).wellFormed = true ∧ (Instr.registerWrite 0x3F 0).wellFormed = true ∧
    (Instr.resumeSkip 0 0x0500).wellFormed = true ∧ (Instr.undefinedCommand 0x0141).wellFormed = true := by decide

/-! ### One step of each command -/

/-- R171, R172: power comes up with nPFAIL low: FENCED, the straps sampled. -/
theorem test_power_on_fenced : (after (.powerOn 3 true false) ready).dev.state = .fenced ∧
    (after (.powerOn 3 true false) ready).physBlocks = 4096 := by decide
/-- R171: nRESET held low keeps the reset condition; its release starts a mount (R35). -/
theorem test_nreset_assert : (after .nresetAssert ready).dev.inReset = true ∧
    (after .nresetAssert ready).mount.running = false := by decide
/-- R70 (log 28): nRESET ends a held read with 0x0000, its own fetch in progress or not; R99: the lines show that
fetch. -/
theorem test_nreset_held :
    let t := after .nresetAssert (holding ⟨0, false, none, 3⟩ (stored 0 (rawWord 0x5678 0)
      (granting (.rawRead 0 0) (chan0 { reader with mode := .rawRead, holds := true } ready))))
    t.host.readData = 0 ∧ t.port.accesses = [.read 0] := by decide
theorem test_nreset_release : (after (.nresetRelease 1) (after .nresetAssert ready)).mount.running = true ∧
    (after (.nresetRelease 1) (after .nresetAssert ready)).physBlocks = 1024 := by decide
/-- R172: nPFAIL with no grant in progress enters FENCED at once; with one it waits for its end. -/
theorem test_npfail_assert : (after .npfailAssert ready).dev.state = .fenced := by decide
theorem test_npfail_assert_busy : (after .npfailAssert (granting (.rawRead 0 0) ready)).dev.state = .ready ∧
    (after .fetchComplete (after .npfailAssert (granting (.rawRead 0 0) ready))).dev.state = .fenced := by decide
/-- R172: the entry is not due while the port runs. -/
theorem test_enter_fenced : (after .enterFenced ready).dev.state = .ready := by decide
/-- R173: the release of nPFAIL resets the part. -/
theorem test_npfail_release : (after (.npfailRelease 2) (after .npfailAssert ready)).dev.state = .mounting ∧
    (after (.npfailRelease 2) (after .npfailAssert ready)).physBlocks = 2048 := by decide

/-- R197: width code 3 is loaded as WORD. -/
theorem test_settings_load : ((after (.channelSettingsLoad 2 0x003F) ready).chan 2).width = .word ∧
    ((after (.channelSettingsLoad 2 0x003F) ready).chan 2).mode = .rawWrite := by decide
/-- R59: the pointer above the window refuses the open. -/
theorem test_open_refused : ((after (.channelOpen 0 0x0100)
    (chan0 { Channel.reset with pointer := 256 } ready)).chan 0).openRefused = some .pointer ∧
    ((after (.channelOpen 0 0x0102) (inState .formatting ready)).chan 0).openRefused = some .deviceState ∧
    ((after (.channelOpen 0 0x0102) ready).chan 0).openRefused = some .rawDisabled := by decide
theorem test_open_taken : ((after (.channelOpen 0 0x0100)
    (chan0 { Channel.reset with pointer := 255 } ready)).chan 0).fetchPtr = some 255 := by decide
/-- R76: a close with a write waiting drains. -/
theorem test_close : ((after (.channelClose 0 0) (chan0 { writer with writeQ := [queued 0] } ready)).chan 0).state =
    .draining := by decide
/-- R75: RETRY fetches from the fault address again. -/
theorem test_retry : ((after (.resumeRetry 0 0x0300)
    (chan0 { reader with state := .faulted, faultAddr := 9, pointer := 4 } ready)).chan 0).fetchPtr = some 9 := by decide
/-- R75: SKIP at the far edge under STOP ends. -/
theorem test_skip : ((after (.resumeSkip 0 0x0500)
    (chan0 { reader with state := .faulted, faultAddr := 511 } ready)).chan 0).state = .ended := by decide
/-- R61: a pointer outside the window faults an OPEN channel. -/
theorem test_pointer_write : ((after (.pointerWrite 0 512) (chan0 reader ready)).chan 0).faultKind = .pointerOutside ∧
    ((after (.pointerWrite 0 511) (chan0 reader ready)).chan 0).pointer = 511 := by decide
/-- R65: DATA_LO returns the low half and does not consume; R66: DATA_HI consumes. -/
theorem test_data_lo_read :
    (after (.dataLoRead 0) (chan0 { reader with readAhead := [word none] } ready)).host.readData = 0x5678 := by decide
theorem test_data_hi_read :
    ((after (.dataHiRead 0) (chan0 { reader with readAhead := [word none] } ready)).chan 0).pointer = 1 ∧
    (after (.dataHiRead 0) (chan0 { reader with readAhead := [word none] } ready)).host.readData = 0x1234 := by decide
/-- R68: DATA_LO of width WORD stages; DATA_HI of HALF_LOW is ignored (R72). -/
theorem test_data_lo_write : ((after (.dataLoWrite 0 0xBEEF) (chan0 writer ready)).chan 0).staging = 0xBEEF := by decide
theorem test_data_hi_write : ((after (.dataHiWrite 0 0xDEAD)
    (chan0 { writer with staging := 0xBEEF } ready)).chan 0).writeQ = [⟨0, .word 0xDEADBEEF, 0⟩] ∧
    ((after (.dataHiWrite 0 1) (chan0 { writer with width := .halfLow } ready)).chan 0).writeIgnored = true := by decide
/-- R194: bit 0 selects the fault address. -/
theorem test_status_write : ((after (.statusWrite 0 1) (chan0 { reader with faultAddr := 0xABCDE } ready)).chan 0).register 2 =
    0xBCDE := by decide
/-- R70: a held read ends when the channel has left OPEN. -/
theorem test_held_cycle_end :
    (after .heldCycleEnd (holding ⟨0, false, none, 3⟩ (chan0 { reader with state := .faulted } ready))).waitPin = false := by
  decide
/-- R71: the wait limit. -/
theorem test_wait_limit : ((after .waitLimitExpiry (holding ⟨0, true, none, 7⟩ (chan0 reader ready))).chan 0).faultKind =
    .waitExpired := by decide
/-- R76: the drain is over. -/
theorem test_drain_complete : ((after (.drainComplete 0) (chan0 { writer with state := .draining } ready)).chan 0).state =
    .closed := by decide

/-- R177 check 2. -/
theorem test_format : (after .format (args 33 0 ready)).cmd.result = .badArg ∧
    (after .format (args 32 0 ready)).dev.state = .formatting := by decide
/-- R177 check 3, R182. -/
theorem test_remount : (after .remount (chan0 reader ready)).cmd.result = .active ∧
    (after .remount ready).dev.state = .mounting := by decide
/-- R183, R43: copy A is written first when it is not valid. -/
theorem test_commit : (after .commit ready).dir.target = some .a ∧ (after .commit ready).cmd.running = some (.commit false) := by
  decide
/-- R184: L is 508; a start takes spare 0 (R19, R142). -/
theorem test_spare_block : (after .spareBlock (args 508 0 ready)).cmd.result = .badArg := by decide
theorem test_spare_block_starts : (ready.requestMigration 507 .host).map.spares = [.allocated, .free] := by decide
/-- R185. -/
theorem test_cancel_spare : (migrating moving).cancelAnswer 4 = .notFound := by decide
theorem test_cancel_spare_frees : ((migrating moving).cancelMigration 3).map.spares = [.free, .free] := by decide
/-- R186. -/
theorem test_scrub_range : (after .scrubRange (args 2 1 ready)).cmd.result = .badArg ∧
    (after .scrubRange (args 511 511 ready)).scrub.range = some ⟨511, 511, 0x1FF00⟩ := by decide
/-- R187. -/
theorem test_clear_faults :
    (after .clearFaults { ready with faults := { FaultTable.empty with untracked := 7 } }).faults.untracked = 0 := by decide
/-- R188: SOFT_RESET keeps the map and releases the spare of a migration in COPY. -/
theorem test_soft_reset : (after .softReset (migrating moving)).map.spares = [.free, .free] ∧
    (after .softReset (posted 3 0 ready)).events.queue.length = 1 := by decide
/-- R197: bits 15 to 8 must be zero. -/
theorem test_undefined_command : (after (.undefinedCommand 0x0141) ready).cmd.field = 0x41 ∧
    (after (.undefinedCommand 0x0141) ready).cmd.result = .badArg := by decide
/-- R176: a range run that has ended completes its command. -/
theorem test_command_completion : (after .commandCompletion (running (.scrubRange 0 0) ready)).irq.cmdDone = true := by
  decide
/-- R174: bit 14 clears REFUSED. -/
theorem test_command_status_write :
    (after (.commandStatusWrite 0x4000) { ready with cmd := { ready.cmd with refused := true } }).cmd.refused = false := by
  decide

/-- R166: bit 5 clears CMD_DONE. -/
theorem test_irq_pending_write :
    (after (.irqPendingWrite 0xFFDF) { ready with irq := ⟨0, true⟩ }).irq.cmdDone = true ∧
    (after (.irqPendingWrite 0x0020) { ready with irq := ⟨0, true⟩ }).irq.cmdDone = false := by decide
/-- R167: seven enables. -/
theorem test_irq_enable_write : (after (.irqEnableWrite 0xFFFF) ready).irq.enable = 0x7F := by decide
/-- R164: a pop of a full queue that lost records ends with EVENTS_LOST. -/
theorem test_event_pop : ((after (.eventPop 0) (posted 16 200 ready)).events.queue.getLast?.map (·.detail)) = some 200 ∧
    (after (.eventPop 0) (posted 16 200 ready)).events.lost = 0 := by decide
/-- R195, R200. -/
theorem test_table_select_write : (after (.tableSelectWrite 0x0103) (asked [⟨5, .auto⟩, ⟨9, .host⟩])).table.copy =
    ⟨0x8009, 1, 0, 0⟩ := by decide
/-- R193: GEOMETRY part 1, then part 2 with bit 15 set. -/
theorem test_paired_read : (after (.pairedRead .geometry) ready).host.readData = 0x0200 ∧
    (after (.pairedRead .geometry) (after (.pairedRead .geometry) ready)).host.readData = 0x81FC := by decide
/-- R118: clearing the enable returns the tick count to 0. -/
theorem test_scrub_ctrl_write :
    (after (.scrubCtrlWrite 6) (scrubbing (fun c => { c with ticks := 40 }) ready)).scrub.ticks = 0 := by decide
/-- R108. -/
theorem test_scrub_period_write : (after (.scrubPeriodWrite 0) ready).timerRuns = false := by decide
/-- R111: 1 is taken as 2. -/
theorem test_scrub_status_write : (after (.scrubStatusWrite 0x0100) ready).scrub.urgentLevel = 2 := by decide
/-- R190: COMMAND_ARG1; a read-only register takes nothing. -/
theorem test_register_write : (after (.registerWrite 0x04 0x1234) ready).cmd.arg1 = 0x1234 ∧
    after (.registerWrite 0x00 0x1234) ready = ready := by decide
/-- R190: the part code. R196: SPARE_CTRL at reset. -/
theorem test_register_read : (after (.registerRead 0x00) ready).host.readData = 0x2418 ∧
    (after (.registerRead 0x36) ready).host.readData = 0x0108 := by decide

/-- R109: urgent at URGENT_LEVEL 12. -/
theorem test_scrub_timer : (after .scrubTimerExpiry (scrubbing (fun c => { c with backlog := 11 }) ready)).scrub.urgent =
    true := by decide
/-- R36: after reset the first grant reads word 0 of copy A, block 510. R87, R90: a grant carries its class. -/
theorem test_grant_decision : (after .grantDecision State.reset).port.grant = some (.mountRead 0x1FE00) ∧
    (after .grantDecision (scrubbing (fun c => { c with backlog := 1 }) ready)).port.cls = some .scrubIdle := by decide
/-- R91: from pointer 1 the next channel with a request is 0 again; the pointer moves past it. -/
theorem test_round_robin :
    (after .grantDecision (chan0 reader { ready with port := { ready.port with rr := 1 } })).port.rr = 1 ∧
    (after .grantDecision (chan0 reader { ready with port := { ready.port with rr := 1 } })).port.grant =
      some (.wordRead 0 0 0) := by decide
/-- R63, R64: a poisoned word at the head faults the channel. -/
theorem test_fetch_complete : ((after .fetchComplete (stored 0 poisonedWord
    (granting (.wordRead 0 0 0) (chan0 { reader with holds := true } ready)))).chan 0).faultKind = .poisoned := by decide
/-- R73: the head entry leaves. -/
theorem test_word_write_done : ((after .wordWriteDone (granting (.wordWrite 0 7 none (freshWord 0))
    (chan0 { writer with holds := true, writeQ := [queued 0, queued 1] } ready))).chan 0).writeQ = [queued 1] := by decide
/-- R11: the 40 bits land as given. -/
theorem test_raw_write_done : (after .rawWriteDone (granting (.rawWrite 0 7 (rawWord 0xFFFFFFFF 0xB5)) ready)).array =
    [(7, ⟨0xFFFFFFFF, true, 0x35⟩)] := by decide
/-- R9, R74: a merge of a poisoned word is refused. -/
theorem test_merge_done : ((after .mergeDone (stored 7 poisonedWord (granting (.merge 0 7 7 none false 1)
    (chan0 { writer with width := .halfLow, holds := true, writeQ := [queued 0] } ready)))).chan 0).faultKind =
      .mergeRefused := by decide
/-- R144, R145: a poisoned word stays poisoned in the copy; its flag is set. -/
theorem test_copy_done : (after .copyDone (stored 0x300 poisonedWord (granting (.copy 0x300 0x1FC00 0)
    (migrating moving)))).array = [(0x300, poisonedWord), (0x1FC00, poisonedWord)] := by decide
/-- R147: a poisoned word without its flag fails; R148: the spare is condemned and the other taken. -/
theorem test_verify_read_done : (after .verifyReadDone (stored 0x1FC00 poisonedWord (granting (.verify 0x1FC00 0)
    (migrating { moving with phase := .verify })))).map.spares = [.condemned, .allocated] := by decide
/-- R113. -/
theorem test_scrub_word_done : (after .scrubWordDone (stored 5 poisonedWord (granting (.scrub 5 true false)
    (scrubbing (fun c => { c with holds := true, word := 5 }) ready)))).scrub.poisonedSeen = 1 := by decide
/-- R96, R136 (log 29): a report in FORMATTING is counted, and the table is empty when FORMAT ends. -/
theorem test_report_formatting :
    let s := (inState .formatting ready).takeReport ⟨5, 0, true, .scrub⟩
    (s.faults.recordOf 5).isSome = true ∧ (s.endFormat Filler.start).faults = FaultTable.empty := by decide
/-- R36, R37: two blank copies leave the part UNFORMATTED. -/
theorem test_mount_read_done : (after .mountReadDone (granting (.mountRead 0x1FFFF)
    { State.reset with mount := { MountReader.start with word := 511, holds := true } })).dev.state = .unformatted := by
  decide
/-- R45. -/
theorem test_commit_write_done : (after .commitWriteDone (granting (.dirWrite 0x1FEFF (freshWord 0))
    (committing .writing 255 1))).dir.state = .readback := by decide
/-- R48: the third failure sets DIR_READONLY. -/
theorem test_commit_readback_done : (after .commitReadbackDone (granting (.dirRead 0x1FE01)
    (committing .readback 1 3))).dev.dirReadonly = true := by decide
/-- R47: G rises and the target is valid with it. -/
theorem test_closing_write_done : (after .closingWriteDone (granting (.dirClose 0x1FE00 blank)
    (committing .readback 255 1))).dir.copyA = ⟨true, 1⟩ := by decide
/-- R43: a start that the pending flag asks for. -/
theorem test_commit_start :
    (after .commitStart { ready with dir := { CommitUnit.reset with pendingFlag := true } }).dir.state = .writing := by decide
/-- R142. -/
theorem test_migration_start : ((after .migrationStart (asked [⟨3, .host⟩])).mig.flight.map (·.spare)) = some 0 := by decide
/-- R151, R21. -/
theorem test_migration_complete : (after .migrationComplete
    { migrating { moving with phase := .commitWait, cursor := 256 } with
      dir := { CommitUnit.reset with
        gen := 1, copyA := ⟨true, 1⟩, target := some .a
        snapshot := some { record with included := some 0 } } }).map = ⟨true, [.inUse, .free], [⟨3, 0⟩]⟩ := by decide
/-- R21, R151: an entry takes its new spare in its slot, and SPARE_CONDEMNED comes before MIGRATION_DONE. -/
theorem test_migration_complete_again :
    let t := after .closingWriteDone { granting (.dirClose 0x1FE00 blank) (committing .readback 255 1) with
      map := ⟨true, [.allocated, .inUse, .inUse], [⟨3, 1⟩, ⟨7, 2⟩]⟩
      mig := { queue := [], flight := some { moving with phase := .commitWait, cursor := 256 }, nextId := 1 }
      dir := { (committing .readback 255 1).dir with snapshot := some { record with included := some 0 } } }
    t.map = ⟨true, [.inUse, .condemned, .inUse], [⟨3, 0⟩, ⟨7, 2⟩]⟩ ∧
      t.events.queue.map (·.kind) = [.spareCondemned, .migrationDone] ∧ t.dir.state = .writing := by decide
/-- R179: FILL ends at (P − 2) × 256 − 1. -/
theorem test_fill_done : ((after .fillDone (granting (.fill 0x1FDFF)
    (filling { Filler.start with stage := .fill, addr := 0x1FDFF }))).filler.map (·.stage)) = some .copyA := by decide
theorem test_format_copy_grant_done : ((after .formatCopyGrantDone (granting (.fillerWrite 0x1FF00 (freshWord 0))
    (filling { Filler.start with word := 1 }))).filler.map (·.stage)) = some .fill := by decide
/-- R201: MD line 32 is the tag. -/
theorem test_cell_decay : (after (.cellDecay 9 32) ready).array = [(9, ⟨0, true, 0⟩)] := by decide
/-- log 3: a tick with an empty queue. -/
theorem test_tick : step ready = .next (scrubbing (fun c => { c with ticks := 1 }) ready) := by rfl

/-! ### A state that meets the hypotheses of each statement, clause by clause -/

/-- FENCED. -/
def fenced : State := after .npfailAssert ready
/-- nPFAIL low and no grant left: the entry into FENCED stands due. -/
def closing : State :=
  { ready with pins := ⟨true, false, 0⟩, port := { ready.port with stopped := true } }

theorem witness_EmptyQueueIsOneTick :
    (State.reset.pending = [] ∧ State.reset.host.held = none ∧ State.reset.timerRuns = false) ∧
    (ready.host.held = none ∧ (scrubbing (fun c => { c with ticks := 154 }) ready).timerRuns = true ∧
      (154#16).toNat + 1 < ready.scrub.period.toNat ∧ (155#16).toNat + 1 = ready.scrub.period.toNat) ∧
    ((holding ⟨0, false, none, 6⟩ State.reset).timerRuns = false ∧
      (holding ⟨0, false, none, 7⟩ State.reset).host.held = some ⟨0, false, none, 7⟩) ∧
    (let s := holding ⟨0, false, none, 6⟩ (scrubbing (fun c => { c with ticks := 155 }) ready)
     s.pending = [] ∧ s.host.held = some ⟨0, false, none, 6⟩ ∧ s.timerRuns = true) := by decide
theorem witness_PowerOnByPins : ready.port.grant = none := by decide
theorem witness_ResetPin :
    (ready.port.grant = none ∧ ready.dev.state ≠ .fenced ∧
      (holding ⟨0, false, none, 3⟩ ready).host.held = some ⟨0, false, none, 3⟩) ∧
    (fenced.port.grant = none ∧ fenced.dev.state = .fenced) ∧
    (let s := holding ⟨0, false, none, 3⟩ (granting (.wordRead 0 0 0) ready)
     s.port.grant = some (.wordRead 0 0 0) ∧ s.port.stopped = false ∧ s.dev.state ≠ .fenced ∧
      s.host.held = some ⟨0, false, none, 3⟩) ∧
    (∀ g : Grant, g ∈ [.wordWrite 0 5 none blank, .rawWrite 0 5 blank, .dirWrite 5 blank, .dirClose 5 blank,
        .fillerWrite 5 blank, .wordWrite 0 5 (some ⟨9, 0⟩) blank, .fill 5, .mountRead 5, .verify 5 0, .dirRead 5,
        .fillerRead 5, .rawRead 0 5] →
      (granting g ready).port.grant = some g ∧ (granting g ready).port.stopped = false) ∧
    ((after .nresetAssert ready).dev.inReset = true ∧ (after .nresetAssert ready).pins.nPfail = true ∧
      (after .nresetAssert ready).dev.state ≠ .fenced) := by decide
theorem witness_PowerFailPin :
    (ready.dev.state ≠ .fenced ∧ ready.port.grant = none ∧ ready.host.held = none) ∧
    (granting (.fill 0) ready).port.grant.isSome = true ∧
    (fenced.dev.state = .fenced ∧ fenced.host.held = none ∧ fenced.pins.nReset = true) ∧
    (fenced.setNReset false).pins.nReset = false := by decide
theorem witness_FenceEntered :
    (closing.port.stopped = true ∧ closing.port.grant = none ∧ closing.dev.state ≠ .fenced ∧
      closing.pins.nPfail = false ∧ closing.host.held = none) ∧
    (holding ⟨3, true, none, 7⟩ closing).host.held = some ⟨3, true, none, 7⟩ ∧
    (holding ⟨0, false, some 5, 0⟩ closing).host.held = some ⟨0, false, some 5, 0⟩ := by decide
theorem witness_FencedLeavesTheArrayAlone :
    (fenced.dev.state = .fenced ∧ fenced.port.grant = none ∧ fenced.pending.head? = none) ∧ (∃ t, step fenced = .next t) ∧
    ∃ t, step { fenced with pending := [.grantDecision] } = .next t := ⟨by decide, ⟨_, rfl⟩, _, rfl⟩
theorem witness_FencedBusCycles : fenced.busFree ∧ fenced.dev.state = .fenced := by decide
theorem witness_EventQueueStaysLegal : (posted 16 255 ready).events.legal ∧ ∃ t, step (posted 16 255 ready) = .next t :=
  ⟨by decide, _, rfl⟩
theorem witness_ArrayStaysCanonical : (stored 5 poisonedWord ready).array.wf = true ∧
    ∃ t, step (stored 5 poisonedWord ready) = .next t := ⟨by decide, _, rfl⟩
theorem witness_ChannelQueuesStayBounded :
    (chan0 { reader with readAhead := [word none, word none] } ready).chansLegal ∧
    (chan0 { writer with writeQ := [queued 0, queued 1, queued 2, queued 3], holds := true } ready).chansLegal ∧
    ∃ t, step (chan0 reader ready) = .next t := ⟨by decide, by decide, _, rfl⟩
theorem witness_MigrationQueueStaysDistinct : (migrating moving).mig.legal ∧ (asked [⟨1, .host⟩, ⟨2, .auto⟩]).mig.legal ∧
    ∃ t, step (migrating moving) = .next t := ⟨by simp [migrating, moving, MigEngine.legal], by decide, _, rfl⟩
theorem witness_OnlyGrantsWriteTheArray :
    (∃ t, exec (.cellDecay 9 32) ready = .next t ∧ t.array ≠ ready.array) ∧
    ∃ t, exec .rawWriteDone (granting (.rawWrite 0 7 poisonedWord) ready) = .next t ∧ t.array ≠ ready.array :=
  ⟨⟨_, rfl, by decide⟩, _, rfl, by decide⟩
theorem witness_OneFlipCorrectedTwoDetected : 0 < 40 ∧ 39 < 40 ∧ 0 ≠ 39 := by decide
theorem witness_CellDecayFlipsOneBit : ready.array.wf = true ∧
    (0x1FFFF#20).toNat < ready.physBlocks * 256 ∧ (39#6).toNat < 40 := by decide
/-- A record with the last logical block on the last spare. -/
def fullRecord : Snapshot :=
  { gen := 1, blocks := 4096, entries := [⟨4061, 31⟩], spares := List.replicate 31 .free ++ [.inUse], included := none }
theorem witness_WrittenCopyMountsBack : fullRecord.Sound ∧ 512 ≠ fullRecord.blocks :=
  ⟨⟨by decide, by decide, by decide, by decide, by decide, by decide, by decide, by decide, by decide⟩, by decide⟩

/-- Channel 0 CLOSED with a window and a pointer. -/
def pointed (last : Block) (p : Addr) : State := chan0 { Channel.reset with winLast := last, pointer := p } ready
theorem witness_OpenIsCheckedInOrder :
    ((ready.chan 0).loadSettings 0x0102).mode = .rawRead ∧ ready.diag.rawEnable = false ∧
    ((inState .mounting ready).busOpen ∧ (inState .formatting ready).busOpen ∧
      ((inState .formatting ready).chan 0).state = .closed) ∧
    ((inState .unformatted ready).busOpen ∧ ((ready.chan 0).loadSettings 0x0100).mode = .read) ∧
    ((pointed 508 0).busOpen ∧ ¬ (508#12).toNat < (pointed 508 0).logicalBlocks) ∧
    ((pointed 0 256).busOpen ∧ ¬ (256#20).toNat ≤ (0#12).toNat * 256 + 255) ∧
    ((pointed 507 130047).busOpen ∧ (507#12).toNat < (pointed 507 130047).logicalBlocks ∧
      (130047#20).toNat ≤ (507#12).toNat * 256 + 255 ∧ ctrlOpenBit 0x0100 = true ∧
      ((pointed 507 130047).chan 0).state = .closed) := by decide
theorem witness_CtrlByState :
    (ready.busOpen ∧ ctrlOpenBit 0x003F = false ∧ (ready.chan 3).state = .closed) ∧
    ((chan0 { writer with state := .draining } ready).busOpen ∧ ctrlOpenBit 0x0100 = true) ∧
    ((chan0 reader ready).busOpen ∧ ctrlOpenBit 0 = false ∧ ((chan0 reader ready).chan 0).state = .opened) ∧
    ((chan0 { reader with state := .ended } ready).chan 0).state = .ended ∧
    ((chan0 { reader with state := .faulted } ready).chan 0).state = .faulted := by decide
/-- Channel 0 in FAULT at an address. -/
def faulted (a : Addr) : State := chan0 { reader with state := .faulted, faultKind := .uncorrectable, faultAddr := a } ready
theorem witness_ResumeFromFault :
    ((faulted 511).busOpen ∧ ctrlOpenBit 0x0300 = true ∧ ctrlResumeBits 0x0300 = 1 ∧
      ((faulted 511).chan 0).state = .faulted) ∧
    (ctrlOpenBit 0x0500 = true ∧ ctrlResumeBits 0x0500 = 2 ∧ ((faulted 511).chan 0).faultAddr = reader.farEdge ∧
      reader.policy = .stop) ∧
    (((faulted 510).chan 0).stepped ((faulted 510).chan 0).faultAddr = some 511 ∧ reader.inWindow 511 = true) ∧
    (reader.inWindow 0 = true ∧ 511 = reader.farEdge ∧ 0 = { reader with step := .down }.farEdge ∧
      { reader with policy := .wrap }.inWindow 511 = true) := by decide
theorem witness_PointerWriteByState : (chan0 { reader with ptrHigh := 15 } ready).busOpen ∧
    (0xFFFFF#20).toNat = ((chan0 { reader with ptrHigh := 15 } ready).chan 0).ptrHigh.toNat * 65536 + (0xFFFF#16).toNat := by
  decide
theorem witness_DataReadDelivers :
    let s := chan0 { reader with readAhead := [word none, word none] } ready
    s.busOpen ∧ (s.chan 0).reads = true ∧ (s.chan 0).state = .opened ∧ (s.chan 0).readAhead = word none :: [word none] ∧
      ∀ x ∈ [word none], x.mark = none := by decide
theorem witness_MarkedEntryFaults :
    let s := chan0 { reader with readAhead := [word none, word (some .poisoned)] } ready
    s.busOpen ∧ (s.chan 0).reads = true ∧ (s.chan 0).state = .opened ∧
      (word (some .poisoned)).mark = some .poisoned ∧ (s.chan 0).stepped (s.chan 0).pointer = some 1 := by decide
theorem witness_OtherDataReads :
    (ready.busOpen ∧ (ready.chan 0).reads = true ∧ (ready.chan 0).state ≠ .opened) ∧
    ((chan0 writer ready).busOpen ∧ ((chan0 writer ready).chan 0).reads = false) := by decide
/-- A write queue with no room. -/
def fullWriter (w : ChanWidth) : State :=
  chan0 { writer with width := w, writeQ := [queued 0, queued 1, queued 2, queued 3] } ready
theorem witness_CycleIsHeld :
    ((chan0 reader ready).busOpen ∧ ((chan0 reader ready).chan 0).reads = true ∧
      ((chan0 reader ready).chan 0).readAhead = []) ∧
    ((fullWriter .halfHigh).busOpen ∧ ((fullWriter .halfHigh).chan 0).state = .opened ∧
      4 ≤ ((fullWriter .halfHigh).chan 0).writeQ.length) ∧
    ((fullWriter .halfLow).busOpen ∧ ((fullWriter .halfLow).chan 0).mode = .write) ∧
    (let s := chan0 { writer with mode := .rawWrite, writeQ := [queued 0, queued 1, queued 2, queued 3] } ready
     s.busOpen ∧ (s.chan 0).state = .opened ∧ 4 ≤ (s.chan 0).writeQ.length) := by decide
theorem witness_DataWritesByWidth :
    (∀ w : ChanWidth, w ∈ [.word, .halfLow, .halfHigh] →
      let s := chan0 { writer with width := w, writeQ := [queued 0, queued 1, queued 2] } ready
      s.busOpen ∧ (s.chan 0).state = .opened ∧ (s.chan 0).writeQ.length < 4 ∧ (s.chan 0).width = w) ∧
    ((chan0 { writer with mode := .rawWrite } ready).chan 0).mode = .rawWrite ∧
    ((chan0 reader ready).chan 0).reads = true ∧
    (∀ st, st ∈ [ChanState.closed, .draining, .ended, .faulted] →
      let s := chan0 { writer with state := st } ready
      s.busOpen ∧ (s.chan 0).state ≠ .opened) := by decide
/-- Channel 0 writes at address 0; channel 1 has fetched address 0, channel 2 fetches it. -/
def sharing (w : ChanWidth) : State :=
  ((chan0 { writer with width := w } ready).setChan 1 { reader with readAhead := [word none] }).setChan 2
    { reader with holds := true }
theorem witness_AcceptanceDropsTheWordElsewhere :
    (∀ w : ChanWidth, w ∈ [.word, .halfLow, .halfHigh] → (sharing w).busOpen ∧ ((sharing w).chan 0).state = .opened ∧
      ((sharing w).chan 0).mode = .write ∧ ((sharing w).chan 0).width = w ∧ ((sharing w).chan 0).writeQ.length < 4 ∧
      ((sharing w).chan 1).mode = .read ∧
      ((sharing w).chan 1).readAhead.findIdx? (fun e => e.addr == ((sharing w).chan 0).pointer) = some 0 ∧
      (∀ e ∈ ((sharing w).chan 2).readAhead, e.addr ≠ ((sharing w).chan 0).pointer) ∧
      ((sharing w).setChan 3 writer |>.chan 3).mode ≠ .read) ∧
    (chan0 { writer with mode := .rawWrite } ready).busOpen := by decide
theorem witness_HeldCycleEnds :
    ((holding ⟨0, true, none, 7⟩ ready).dev.state ≠ .fenced ∧ (ready.chan 0).state ≠ .opened) ∧
    (((chan0 { reader with readAhead := [word none] } ready).chan 0).readAhead = word none :: [] ∧
      (word none).side = none ∧ { word none with side := some 0xB5 }.side = some 0xB5) ∧
    (let s := holding ⟨0, true, none, 7⟩ (chan0 { reader with readAhead := [word none, word (some .poisoned)] } ready)
     s.host.held = some ⟨0, true, none, 7⟩ ∧ (s.chan 0).state = .opened ∧
      (s.chan 0).stepped (s.chan 0).pointer = some 1) ∧
    (∀ w, w ∈ [ChanWidth.word, .halfLow, .halfHigh] → ∀ m, m ∈ [ChanMode.write, .rawWrite] → ∀ b, b ∈ [true, false] →
      let s := holding ⟨0, b, some 1, 7⟩ (chan0 { writer with mode := m, width := w } ready)
      s.host.held = some ⟨0, b, some 1, 7⟩ ∧ (s.chan 0).state = .opened ∧ (s.chan 0).mode = m ∧
        (s.chan 0).width = w ∧ (s.chan 0).writeQ.length < 4) ∧
    (4 ≤ ((fullWriter .word).chan 0).writeQ.length ∧ ((fullWriter .word).chan 0).state = .opened) ∧
    (((chan0 { writer with writeQ := [queued 0, queued 1, queued 2] } ready).chan 0).writeQ.length < 4 ∧
      ((chan0 writer ready).chan 0).width = .word) ∧
    (((chan0 { writer with state := .draining } ready).chan 0).state = .draining ∧
      ((chan0 { writer with state := .draining } ready).chan 0).writeQ = []) := by decide
theorem witness_WaitExpiryFaults :
    (holding ⟨0, true, none, 7⟩ (chan0 reader ready)).host.held = some ⟨0, true, none, 7⟩ ∧
    (holding ⟨0, true, some 1, 7⟩ (fullWriter .word)).host.held = some ⟨0, true, some 1, 7⟩ := by decide

theorem witness_CommandRefused :
    (fenced.busFree ∧ fenced.cmd.running = none ∧ fenced.dev.state = .fenced) ∧
    (State.reset.busFree ∧ State.reset.dev.state = .mounting) ∧
    ((running .remount State.reset).busFree ∧ (running .remount State.reset).cmd.running.isSome = true ∧
      (0x22 : Half) ≠ 0x7E) := by decide
theorem witness_CompletesAtOnce :
    (ready.commandFree ∧ (0x0141 : Half) ∉ commandCodes) ∧
    ((inState .unformatted ready).commandFree ∧ (inState .unformatted ready).dev.state ≠ .ready) ∧
    ((inState .formatting ready).commandFree ∧ (inState .formatting ready).dev.state = .formatting) := by decide
theorem witness_FormatByChecks :
    (ready.commandFree ∧ ready.dev.state = .ready ∧ 32 < (args 33 0 ready).cmd.arg0.toNat) ∧
    ((args 32 0 ready).commandFree ∧ (args 32 0 ready).cmd.arg0.toNat ≤ 32 ∧
      (∀ n, ((args 32 0 ready).chan n).state = .closed) ∧ ready.mig.flight = none ∧ ready.dir.state = .idle) ∧
    (chan0 reader ready).commandFree ∧ (∃ n, ((chan0 reader ready).chan n).state ≠ .closed) ∧
    (inState .foreign ready).commandFree := by decide
theorem witness_RemountByChecks :
    ((migrating moving).commandFree ∧ (migrating moving).mig.flight.isSome = true) ∧
    (ready.commandFree ∧ (∀ n, (ready.chan n).state = .closed) ∧ ready.mig.flight = none ∧ ready.dir.state = .idle) := by
  decide
/-- READY and DIR_READONLY. -/
def readonly : State := { ready with dev := { ready.dev with dirReadonly := true } }
/-- READY with G at a value. -/
def atGen (g : Word) : State := { ready with dir := { CommitUnit.reset with gen := g } }
theorem witness_CommitCommand :
    (readonly.commandFree ∧ readonly.dir.state = .idle ∧ readonly.dev.dirReadonly = true) ∧
    ((committing .writing 0 1).commandFree ∧ (committing .writing 0 1).dir.state ≠ .idle) ∧
    ((atGen 0xFFFFFFFF).commandFree ∧ (atGen 0xFFFFFFFF).mig.flight = none ∧
      (atGen 0xFFFFFFFF).skipped (atGen 0xFFFFFFFF).scrub.block = false ∧ (atGen 0xFFFFFFFF).scrub.range = none) ∧
    ((atGen 0xFFFFFFFE).commandFree ∧ (atGen 0xFFFFFFFE).dir.gen ≠ 0xFFFFFFFF ∧ (atGen 0xFFFFFFFE).scrub.backlog = 0 ∧
      (atGen 0xFFFFFFFE).waitingMigration = none) ∧
    ((migrating { moving with phase := .commitWait }).commandFree ∧
      (∀ e ∈ (migrating { moving with phase := .commitWait }).map.remap, e.logical ≠ moving.lam)) := by decide
theorem witness_SpareBlockByChecks :
    (ready.commandFree ∧ ready.dev.state = .ready ∧ ready.scrub.backlog = 0 ∧ ready.scrub.range = none ∧
      ready.logicalBlocks ≤ (args 508 0 ready).cmd.arg0.toNat) ∧
    ({ ready with map := ⟨true, [], []⟩ } : State).spareCount = 0 ∧
    ((507#12).toNat = (args 507 0 ready).cmd.arg0.toNat ∧ (507#12).toNat < ready.logicalBlocks ∧ ready.spareCount ≠ 0) ∧
    ((∃ r ∈ (asked [⟨507, .auto⟩]).mig.queue, r.block = 507) ∧ (asked [⟨507, .auto⟩]).commandFree) ∧
    8 ≤ (asked (List.replicate 8 ⟨1, .host⟩)).mig.queue.length ∧
    (∀ r ∈ (asked (List.replicate 8 ⟨1, .host⟩)).mig.queue, r.block ≠ 507) ∧
    ((migrating moving).mig.flight = some moving ∧ moving.lam ≠ 507 ∧ (migrating moving).mig.queue.length < 8 ∧
      (migrating moving).commandFree) ∧
    (ready.mig.flight = none ∧ ready.mig.queue = [] ∧ ready.dev.dirReadonly = false ∧
      ready.map.spares[0]? = some .free) ∧
    (let s := { args 507 0 ready with map := ⟨true, [.condemned, .condemned], []⟩ }
     s.commandFree ∧ 507 < s.logicalBlocks ∧ s.spareCount ≠ 0 ∧ ∀ x ∈ s.map.spares, x ≠ .free) ∧
    readonly.commandFree := by decide
theorem witness_CancelSpare :
    (ready.commandFree ∧ (507#12).toNat = (args 507 0 ready).cmd.arg0.toNat ∧ (507#12).toNat < ready.logicalBlocks ∧
      ready.mig.queue = [] ∧ ready.mig.flight = none) ∧
    ((migrating { moving with phase := .commitWait }).commandFree ∧ moving.lam = 3 ∧
      (3#12).toNat = (args 3 0 ready).cmd.arg0.toNat) ∧
    (∃ r ∈ (asked [⟨3, .auto⟩]).mig.queue, r.block = 3) ∧
    ((migrating moving).commandFree ∧ moving.phase ≠ .commitWait ∧ (migrating moving).mig.queue = [] ∧
      (migrating moving).map.spares[moving.spare]? = some .allocated) := by decide
theorem witness_ScrubRange :
    (ready.commandFree ∧ ¬ ((args 512 512 ready).cmd.arg0.toNat ≤ (args 512 512 ready).cmd.arg1.toNat ∧
      (args 512 512 ready).cmd.arg1.toNat < ready.physBlocks)) ∧
    ((511#12).toNat = (args 511 511 ready).cmd.arg1.toNat ∧ (511#12).toNat < ready.physBlocks ∧
      ready.skipped 511 = false ∧ ready.scrub.holds = false) ∧
    ((running (.scrubRange 0 0) ready).cmd.running = some (.scrubRange 0 0) ∧ ready.scrub.range = none) := by decide
theorem witness_ClearFaultsKeepsRequests :
    (ready.commandFree ∧ ready.dev.state = .ready) ∧
    ((inState .foreign ready).commandFree ∧ (inState .foreign ready).dev.state ≠ .ready) := by decide
theorem witness_SoftReset :
    ((migrating moving).busFree ∧ cutsOffMount (migrating moving).cmd.running = false ∧
      (migrating moving).map.spares[moving.spare]? = some .allocated) ∧
    ((migrating { moving with phase := .commitWait }).busFree ∧ ready.mig.flight = none) ∧
    ((running .remount State.reset).busFree ∧ State.reset.dev.state = .mounting ∧
      cutsOffMount (running .remount State.reset).cmd.running = true) := by decide

theorem witness_RegisterWritesLoad :
    (ready.busFree ∧ ready.scrub.range = none ∧ ready.skipped ready.scrub.block = false ∧
      (2 : BitVec 4) = (if (0x0100 : Half).extractLsb' 8 4 = 0 ∨ (0x0100 : Half).extractLsb' 8 4 = 1 then 2
        else (0x0100 : Half).extractLsb' 8 4)) ∧
    (ready.busOpen ∧ (ready.chan 3).state = .closed) ∧
    ((chan0 reader ready).busOpen ∧ ((chan0 reader ready).chan 0).state ≠ .closed) := by decide
theorem witness_PopTakesTheHead :
    (ready.busFree ∧ ready.events.queue = []) ∧
    ((posted 1 0 ready).busFree ∧ (posted 1 0 ready).events.queue = commandDoneRecord 0x31 .ok :: []) ∧
    ((posted 16 255 ready).busFree ∧ (posted 16 255 ready).events.lost ≠ 0) := by decide
theorem witness_PairedReadInTwoParts :
    ready.busFree ∧ ready.host.latch = none ∧ ready.spareCount ≤ 32 ∧ ready.logicalBlocks < 4096 ∧
    (migrating { moving with phase := .commitWait, cursor := 256 }).shownCursor ≤ 256 ∧
    (migrating moving).mig.flight = some moving ∧ ready.mig.flight = none ∧ ready.port.stopped = false := by decide
/-- R193: part 2 is of the first read, whatever the timer has done between. -/
theorem test_paired_read_between :
    (after (.pairedRead .migrationStatus) (after .migrationStart
      (after (.pairedRead .migrationStatus) (asked [⟨3, .host⟩])))).host.readData = 0x8000 := by decide
theorem witness_TableSelectCopies :
    ready.busFree ∧ (0x1F03 : Half).extractLsb' 0 2 = 3 ∧ ready.mig.queue.length ≤ ((0x1F03 : Half).extractLsb' 8 5).toNat ∧
    (asked [⟨9, .host⟩]).mig.queue[((3 : Half).extractLsb' 8 5).toNat]? = some ⟨9, .host⟩ ∧
    ready.spareCount ≤ ((0x0202 : Half).extractLsb' 8 5).toNat ∧ ready.map.remap.length ≤ ((1 : Half).extractLsb' 8 5).toNat ∧
    ready.faults.slots.toList[((0x1F00 : Half).extractLsb' 8 5).toNat]? = some none ∧
    (faultTable (faultOf 0 .retired)).slots.toList[((0 : Half).extractLsb' 8 5).toNat]? = some (some (faultOf 0 .retired)) ∧
    remapped.map.remap[((1 : Half).extractLsb' 8 5).toNat]? = some ⟨3, 0⟩ ∧
    remapped.map.spares[((2 : Half).extractLsb' 8 5).toNat]? = some .inUse ∧ (remapped.map.remap.map (·.spare)).Nodup ∧
    remapped.map.spares[((0x0102 : Half).extractLsb' 8 5).toNat]? = some .free := by decide
theorem witness_RegisterReadsShow : ready.busFree ∧ ready.events.queue = [] ∧
    (running .remount ready).cmd.running.isSome = true ∧
    (posted 1 0 ready).events.queue = commandDoneRecord 0x31 .ok :: [] ∧
    (∃ j : Nat, [DevState.mounting, .unformatted, .foreign, .formatting, .ready, .fenced][j]? = some ready.dev.state) ∧
    (∃ k : Nat, [MountOutcome.unformatted, .mounted, .mountedSingle, .foreign][k]? = some ready.dev.outcome) ∧
    (∃ k : Nat, [Result.ok, .okDegraded, .badArg, .notReady, .active, .noSpare, .queueFull, .duplicate, .tooLate, .notFound,
      .dirReadonly, .dirFail, .aborted][k]? = some ready.cmd.result) :=
  ⟨by decide, by decide, by decide, by decide, ⟨4, rfl⟩, ⟨1, rfl⟩, 0, rfl⟩
theorem witness_ArbiterOrder :
    (ready.port.stopped = false ∧ ready.dev.inReset = false ∧ ready.dev.state ≠ .fenced) ∧
    (granting (.fill 0) ready).port.grant.isSome = true ∧
    (State.reset.port.grant = none ∧ State.reset.dev.state = .mounting ∧ State.reset.mount.running = true) ∧
    ((filling Filler.start).dev.state = .formatting ∧ (filling Filler.start).filler = some Filler.start) ∧
    (∀ st, st ∈ [CommitState.writing, .readback] → (committing st 0 1).port.grant = none ∧
      (committing st 0 1).dev.state = .ready ∧ (committing st 0 1).dir.target = some .a ∧
      (committing st 0 1).dir.snapshot = some record ∧ (committing st 0 1).dir.state = st ∧
      (committing st 0 1).dir.closing = false) ∧
    (let s := scrubbing (fun c => { c with backlog := 12, urgent := true }) ready
     s.port.grant = none ∧ s.dir.state = .idle ∧ s.scrubOffer = some (0, false) ∧ s.scrub.urgent = true) ∧
    (scrubbing (fun c => { c with range := some ⟨0, 1, 0⟩ }) ready).scrub.range.isSome = true ∧
    (let s := chan0 reader { ready with port := { ready.port with rr := 1 } }
     s.port.grant = none ∧ s.dir.state = .idle ∧ s.scrubOffer = none ∧
      (∀ j : Fin 4, j.val < 3 → s.chanRequests (s.port.rr + j) = false) ∧
      (0 : Fin 4) = s.port.rr + Fin.ofNat 4 3 ∧ s.chanRequests 0 = true ∧
      (s.migRequests && s.port.aging == 16) = false) ∧
    (let s := { migrating moving with port := { ready.port with aging := 16 } }
     s.port.grant = none ∧ s.dir.state = .idle ∧ s.scrubOffer = none ∧ moving.phase ≠ .commitWait ∧ s.port.aging = 16) ∧
    (∀ n, (migrating moving).chanRequests n = false) ∧
    (let s := scrubbing (fun c => { c with backlog := 1 }) ready
     s.migRequests = false ∧ (∀ n, s.chanRequests n = false) ∧ s.scrubOffer = some (0, false) ∧
      s.scrub.urgent = false ∧ s.scrub.range = none) ∧
    ready.scrubOffer = none := by decide
/-- A READ channel that may fetch, one that R78 withholds, a head that may go, one that R79 withholds. -/
theorem witness_ArbiterOrder_requests :
    (let c := (chan0 reader ready).chan 0
     c.mode = .read ∧ c.state = .opened ∧ c.readAhead.length < 2 ∧ c.fetchPtr = some 0 ∧
      ∀ m, ((chan0 reader ready).chan m).writeQ = []) ∧
    (let s := (chan0 { writer with writeQ := [⟨0, .word 1, 0⟩] } ready).setChan 1 reader
     (s.chan 1).fetchPtr = some 0 ∧ (s.chan 0).writeQ = [⟨0, .word 1, 0⟩] ∧ s.chanRequests 1 = false) ∧
    (let s := (chan0 { writer with writeQ := [⟨0, .word 1, 0⟩] } ready).setChan 1
        { writer with writeQ := [⟨0, .halfLow 2, 1⟩] }
     (s.chan 0).mode = .write ∧ (s.chan 0).writeQ = [⟨0, .word 1, 0⟩] ∧
      (s.chan 1).writeQ = [⟨0, .halfLow 2, 1⟩] ∧ s.chanRequests 1 = false) := by decide
theorem witness_WritesAreMirroredBehindTheCopy :
    ready.mig.flight = none ∧ moving.lam = blockOf 0x3FF ∧ (moving.phase = .copy ∧ moving.cursor ≤ (offsetOf 0x300).toNat) ∧
    (offsetOf 0x300).toNat < { moving with cursor := 1 }.cursor ∧ moving.lam ≠ blockOf 0x400 ∧
    (([⟨3, 0⟩] : List RemapEntry).map (·.logical)).Nodup := by decide
/-- Channel 0 reads and holds a grant. -/
def fetching (g : Grant) : State := granting g (chan0 { reader with holds := true } ready)
theorem witness_FetchDelivers :
    ((fetching (.wordRead 0 0 0)).quietEnd ∧ ((fetching (.wordRead 0 0 0)).chan 0).wantsFetch = true ∧
      (fetching (.wordRead 0 0 0)).port.grant = some (.wordRead 0 0 0) ∧
      (fetching (.wordRead 0 0 0)).cell 0 = freshWord 0 ∧ (fetching (.wordRead 0 0 0)).host.held = none) ∧
    (holding ⟨0, false, none, 7⟩ (fetching (.wordRead 0 0 0))).host.held = some ⟨0, false, none, 7⟩ ∧
    (stored 0 poisonedWord (fetching (.wordRead 0 0 0))).cell 0 = poisonedWord ∧
    (fetching (.rawRead 0 5)).port.grant = some (.rawRead 0 5) := by decide
/-- Channel 0 writes and holds a grant. -/
def writingIn (st : ChanState) (g : Grant) (s : State) : State :=
  granting g (chan0 { writer with state := st, holds := true, writeQ := [queued 0] } s)
def writing (g : Grant) (s : State) : State := writingIn .opened g s
theorem witness_WritesLand :
    (∀ st, st ∈ [ChanState.opened, .draining, .ended, .faulted] →
      let s := writingIn st (.wordWrite 0 7 none (freshWord 0)) ready
      s.quietEnd ∧ s.host.held = none ∧ (s.chan 0).holds = true ∧ (s.chan 0).state = st) ∧
    (writing (.rawWrite 0 7 blank) ready).port.grant = some (.rawWrite 0 7 blank) ∧
    (∀ g : Grant, g ∈ [.wordWrite 0 0x300 (some ⟨0x1FC00, 0⟩) blank, .merge 0 0x300 0x300 (some ⟨0x1FC00, 0⟩) true 1] →
      (writing g (migrating moving)).port.grant = some g ∧ (writing g (migrating moving)).mig.flight = some moving ∧
      moving.ident = 0 ∧ (writing g (migrating { moving with ident := 1 })).quietEnd ∧
      (writing g (migrating moving)).quietEnd ∧ (writing g (migrating moving)).cell 0x300 = freshWord 0) ∧
    (writing (.merge 0 7 7 none true 1) ready).cell 7 = freshWord 0 ∧
    (stored 7 poisonedWord (writing (.merge 0 7 7 none true 1) ready)).cell 7 = poisonedWord := by decide
theorem witness_CopyAndVerify :
    ((granting (.copy 0x300 0x1FC00 0) (migrating moving)).quietEnd ∧
      (granting (.copy 0x300 0x1FC00 0) (migrating moving)).cell 0x300 = freshWord 0 ∧ moving.phase = .copy ∧
      moving.ident = 0) ∧
    (stored 0x300 poisonedWord (granting (.copy 0x300 0x1FC00 0) (migrating moving))).cell 0x300 = poisonedWord ∧
    (let m := { moving with phase := .verify, cursor := 254, attempt := 3 }
     (migrating m).quietEnd ∧ m.cursor < 255 ∧ m.poison.getLsbD m.cursor = false ∧ (migrating m).mig.queue = [] ∧
      (migrating m).map.spares[m.spare]? = some .allocated ∧ ({ m with poison := 1#256 <<< 254 }).poison.getLsbD 254 = true) := by
  decide
theorem witness_CopyAndVerify_ends :
    (∀ k, k ∈ [1, 2, 3] → ∀ c, c ∈ [0, 255] → ∀ x, x ∈ [blank, poisonedWord] →
      let m := { moving with phase := .verify, cursor := c, attempt := k }
      let s := stored 0x1FC00 x (granting (.verify 0x1FC00 0) (migrating m))
      s.quietEnd ∧ s.mig.flight = some m ∧ s.port.grant = some (.verify 0x1FC00 m.ident) ∧ s.cell 0x1FC00 = x ∧
        m.poison.getLsbD c = false ∧ s.map.spares[m.spare]? = some .allocated ∧ s.map.spares[1]? = some .free ∧
        s.dir.state = .idle ∧ s.dev.dirReadonly = false ∧ s.dir.gen ≠ 0xFFFFFFFF ∧ s.cmd.running = none ∧
        s.scrub.passEvent = false ∧ s.mig.queue = []) ∧
    (committing .writing 0 1).dir.state ≠ .idle ∧ readonly.dev.dirReadonly = true ∧
    (atGen 0xFFFFFFFF).dir.gen = 0xFFFFFFFF ∧
    (∀ x ∈ ({ migrating moving with map := ⟨true, [.allocated], []⟩ } : State).map.spares, x ≠ .free) := by decide
/-- R148: the second spare takes over; MIGRATION_RETRY carries the attempt. -/
theorem test_verify_retry : ((after .verifyReadDone (stored 0x1FC00 poisonedWord (granting (.verify 0x1FC00 0)
    (migrating { moving with phase := .verify })))).events.queue.getLast?.map fun e => (e.phys, e.detail)) =
      some (some 509, 2) := by decide
/-- The block that `moving` moves has its entry, on spare 1. -/
def moved (s : State) : State := { s with map := ⟨true, [.allocated, .inUse], [⟨3, 1⟩]⟩ }
theorem witness_MigrationStartsAndCompletes :
    ((asked [⟨3, .host⟩]).rangeRuns = false ∧ (asked [⟨3, .host⟩]).scrub.range = none ∧
      (asked [⟨3, .host⟩]).scrub.backlog = 0 ∧ (asked [⟨3, .host⟩]).mig.flight = none ∧
      (asked [⟨3, .host⟩]).map.spares[0]? = some .free ∧ (asked [⟨3, .host⟩]).dir.state = .idle ∧
      (asked [⟨3, .host⟩]).dev.dirReadonly = false) ∧
    (let s := { migrating { moving with phase := .commitWait } with
        dir := { CommitUnit.reset with
          gen := 1, copyA := ⟨true, 1⟩, target := some .a, snapshot := some { record with included := some 0 } } }
     s.mig.queue = [] ∧ s.dir.known .a = ⟨true, 1⟩ ∧ s.dir.gen = 1 ∧ (∀ e ∈ s.map.remap, e.logical ≠ 3) ∧
      s.dev.state = .ready ∧ (moved s).map.remap = [] ++ ⟨moving.lam, 1⟩ :: [] ∧ 1 ≠ moving.spare ∧
      (moved s).map.spares[1]? = some .inUse) := by decide
/-- The scrub engine waits for a word at its cursor, or at a range cursor. -/
def visiting (a : Addr) (f : Scrub → Scrub) : State :=
  scrubbing (fun c => f { c with holds := true }) (granting (.scrub a true false) ready)
def ranging (a : Addr) (r : RangeRun) : State :=
  scrubbing (fun c => { c with holds := true, range := some r })
    (granting (.scrub a true true) (running (.scrubRange 0 0) ready))
theorem witness_ScrubVisitsAndCredits :
    (let s := visiting 0x1FDFE fun c => { c with word := 14 }
     s.quietEnd ∧ s.scrub.word ≠ 15 ∧ s.cell 0x1FDFE = freshWord 0 ∧ (blockOf 0x1FDFE).toNat < s.physBlocks - 2 ∧
      (stored 0x1FDFE poisonedWord s).cell 0x1FDFE = poisonedWord ∧
      (stored 0x1FDFE (flipBit blank 39) s).cell 0x1FDFE = flipBit (freshWord 0) 39) ∧
    (ready.timerRuns = true ∧ (scrubbing (fun c => { c with backlog := 14 }) ready).scrub.backlog ≠ 15 ∧
      (scrubbing (fun c => { c with backlog := 15 }) ready).scrub.backlog = 15 ∧ ready.scrub.range = none ∧
      ready.skipped ready.scrub.block = false ∧ (visiting 0 id).timerRuns = true ∧ (visiting 0 id).scrub.holds = true ∧
      State.reset.timerRuns = false) ∧
    (ready.skipped (blockOf 0x1FFFE) = false ∧
      (ranging 0x1FFFE ⟨511, 511, 0x1FFFE⟩).scrub.range = some ⟨511, 511, 0x1FFFE⟩) := by decide
/-- The last slice of the array, with SCRUB_PASS enabled. -/
theorem witness_ScrubVisits_slice :
    let s := visiting 0x1FFFF fun c => { c with word := 15, slice := 15, block := 511, backlog := 1, passEvent := true }
    s.quietEnd ∧ s.scrub.word = 15 ∧ s.cell 0x1FFFF = freshWord 0 ∧ s.skipped 0 = false ∧
      ((0 : Block), (0 : BitVec 4)) = (if s.scrub.slice ≠ 15 then (s.scrub.block, s.scrub.slice + 1)
        else if s.scrub.block.toNat < s.physBlocks - 1 then (s.scrub.block + 1, 0) else (0, 0)) := by decide
theorem witness_ScrubVisits_skipped :
    let s := { remapped with scrub := { ready.scrub with block := 3, slice := 14 } }
    s.timerRuns = true ∧ s.scrub.range = none ∧ s.scrub.holds = false ∧ s.scrub.backlog = 0 ∧
      s.skipped s.scrub.block = true ∧ s.scrub.slice ≠ 15 := by decide
/-- R4: two flipped bits are UNCORRECTABLE. -/
theorem test_two_flips : (decodeWord (flipBit (flipBit blank 0) 1)).cls = .uncorrectable := by
  have h : syndrome blank = 0 := syndrome_of_valid (c := blank) (encode_zero false).symm
  have hne : signatureAt 0 ≠ signatureAt 1 := fun e => absurd (signatureAt_inj (by decide) (by decide) e) (by decide)
  simp [decodeWord, syndrome_flipBit, h, hne, locate_pair]
/-- A word read UNCORRECTABLE in a data block, a FREE spare and a directory copy. -/
theorem witness_ScrubVisits_uncorrectable :
    (∀ b : Block, b ∈ [0, 508, 510] →
      let s := { stored (wordAddr b 0).toNat (flipBit (flipBit blank 0) 1) (visiting (wordAddr b 0) id) with
        faults := faultTable (faultOf b .observed), spareCtrl := ⟨0, false, false, false⟩
        dir := { CommitUnit.reset with copyA := ⟨true, 1⟩ } }
      s.port.stopped = false ∧ s.dev.state = .ready ∧ s.rangeRuns = false ∧ s.scrub.holds = true ∧
        s.cell (wordAddr b 0) = flipBit (flipBit blank 0) 1 ∧ s.faults.recordOf b = some (faultOf b .observed) ∧
        s.roleOf b = (if b = 0 then .data else if b = 508 then .spare 0 .free else .copy .a) ∧
        (s.dir.known .a).valid = true) ∧
    ((committing .writing 0 1).dir.state ≠ .idle ∧ (committing .writing 0 1).dev.dirReadonly = false ∧
      readonly.dev.dirReadonly = true) := by decide
theorem witness_ScrubVisits_range :
    (let s := ranging 0x1FFFE ⟨511, 511, 0x1FFFE⟩
     s.cmd.running = some (.scrubRange 0 0) ∧ s.scrub.range = some ⟨511, 511, 0x1FFFE⟩ ∧ s.cell 0x1FFFE = freshWord 0 ∧
      0x1FFFE < wordAddr 511 255 ∧ s.skipped (blockOf 0x1FFFF) = false ∧ 0x1FFFF = wordAddr 511 255) ∧
    ((0x2FF : Addr) + 1 = wordAddr 3 0 ∧ (3 : Block) < 4 ∧ remapped.skipped 3 = true ∧ remapped.skipped (3 + 1) = false) := by
  decide
theorem witness_ReportsAreCounted :
    let s := stored 9 (flipBit (freshWord 0) 39)
      (granting (.mountRead 9) { State.reset with mount := ⟨true, 9, CopyFold.start, CopyFold.start, true⟩ })
    s.quietEnd ∧ s.dev.state = .mounting ∧ s.mount.word.toNat < 511 ∧ s.spareCtrl.reportCorrected = false ∧
      s.cell 9 = flipBit (freshWord 0) 39 ∧
      ({ s with faults := faultTable (faultOf 0 .observed) } : State).faults.recordOf 0 = some (faultOf 0 .observed) ∧
      s.faults.recordOf 0 = none ∧ s.faults.slots.toList[0]? = some none := by decide
/-- A report in READY of a fetch and of a SCRUB_WORD, CORRECTED and UNCORRECTABLE. -/
theorem witness_ReportsAreCounted_ready :
    ∀ x, x ∈ [flipBit blank 39, flipBit (flipBit blank 0) 1] →
      ∀ g, g ∈ [Grant.wordRead 1 5 9, .scrub 9 true false, .scrub 9 false false] →
      let s := { stored 9 x (granting g ready) with spareCtrl := ⟨0, false, false, false⟩ }
      s.quietEnd ∧ s.dev.state = .ready ∧ s.spareCtrl.threshold = 0 ∧ s.port.grant = some g ∧ s.cell 9 = x ∧
        s.scrub.passEvent = false ∧ s.dir.gen ≠ 0xFFFFFFFF ∧ s.host.held = none ∧
        (∀ n, ∀ e ∈ (s.chan n).readAhead, e.mark = none) := by decide
/-- Full tables with no record to evict: QUEUED, MIGRATING, and OBSERVED with an uncorrectable count. -/
theorem witness_ReportsAreCounted_full :
    ∀ r, r ∈ [faultOf 1 .queued, faultOf 1 .migrating, { faultOf 1 .observed with uncorrectable := 1 }] →
      ∀ x ∈ (fullTable r).slots.toList, ∃ q, x = some q ∧ q.phys ≠ 0 ∧
        (q.state = .queued ∨ q.state = .migrating ∨ q.state = .observed ∧ q.uncorrectable ≠ 0) := by
  intro r hr x hx
  refine ⟨r, by simpa [fullTable] using hx, ?_⟩
  clear hx x
  revert r
  decide
/-- A full table whose record at slot 31 is the one to evict, of each of the three kinds. -/
theorem witness_ReportsAreCounted_evicts :
    ∀ st, st ∈ [FaultState.retired, .unspareable, .observed] → let t := oddTable (faultOf 2 st)
      (∀ x ∈ t.slots.toList, (x.any fun r => r.phys != 0) = true) ∧ t.slots.toList[31]? = some (some (faultOf 2 st)) ∧
      t.order = [1] ++ (2 : Block) :: [] ∧ t.recordOf 1 = some (faultOf 1 .queued) ∧
      (faultOf 2 st).uncorrectable = 0 := by decide
theorem witness_ThresholdAsksForMigration :
    let s := { stored 9 (flipBit (freshWord 0) 0) (granting (.wordRead 0 9 9) (migrating moving)) with
      faults := faultTable (faultOf 0 .observed) }
    s.quietEnd ∧ s.dev.state = .ready ∧ s.host.held = none ∧ s.cell 9 = flipBit (freshWord 0) 0 ∧
      s.spareCtrl.reportCorrected = false ∧ s.faults.recordOf (blockOf 9) = some (faultOf 0 .observed) ∧
      s.servedBy (blockOf 9) = some 0 ∧ s.home 0 = blockOf 9 ∧ s.mig.flight = some moving ∧ moving.lam ≠ 0 ∧
      (∀ q ∈ s.mig.queue, q.block ≠ 0) ∧ s.mig.queue.length < 8 ∧
      s.spareCtrl.threshold ≤ satInc (faultOf 0 .observed).corrected := by decide
/-- The mount reader waits for word i. -/
def mounting (i : BitVec 9) (fa fb : CopyFold) : State :=
  granting (.mountRead 0x1FE00) { State.reset with mount := ⟨true, i, fa, fb, true⟩ }
theorem witness_MountReads :
    ((mounting 255 CopyFold.start CopyFold.start).quietEnd ∧
      (mounting 255 CopyFold.start CopyFold.start).cell 0x1FE00 = freshWord 0 ∧
      (mounting 255 CopyFold.start CopyFold.start).mount.holds = true) ∧
    (256 ≤ (256#9).toNat ∧ (510#9).toNat < 511 ∧ (511#9).toNat = 511) ∧
    CopyFold.start.verdict 512 = .invalid := by decide
/-- The tests of a copy of P 512 with no spares and check word 0, its 255 words read. -/
def goodFold : CopyFold :=
  { allGood := true, sum := 0, words := [signature, 1, 0x01000200, 0] ++ List.replicate 64 0 }
theorem witness_MountReads_valid : goodFold.verdict 512 = .valid ∧
    ({ allGood := goodFold.allGood, sum := goodFold.sum + 0, words := goodFold.words } : CopyFold).verdict
      (mounting 511 goodFold goodFold).physBlocks = .valid ∧
    (mounting 511 CopyFold.start CopyFold.start).dev.dirReadonly = false ∧ goodFold.gen ≠ 0xFFFFFFFF ∧
    (mounting 511 goodFold goodFold).dir.state = .idle ∧ (mounting 511 goodFold goodFold).mig.flight = none ∧
    goodFold.verdict 1024 = .foreign ∧ CopyFold.start.verdict 1024 = .invalid := by decide
theorem witness_FillerStages :
    ((granting (.fillerWrite 0x1FE00 (freshWord 0)) (filling Filler.start)).quietEnd ∧
      (filling Filler.start).dev.state = .formatting ∧ Filler.start.stage = .zero ∧ Filler.start.word = 0) ∧
    ((0x1FDFF#20).toNat = ((filling Filler.start).physBlocks - 2) * 256 - 1 ∧
      (0x1FDFE#20).toNat ≠ ((filling Filler.start).physBlocks - 2) * 256 - 1) ∧
    (let f := { Filler.start with stage := .copyB, phase := .closing, wroteA := true }
     (running (.format 2) (filling f)).cmd.running = some (.format 2) ∧ (running (.format 2) (filling f)).quietEnd) ∧
    (∀ st, st ∈ [FillStage.copyA, .copyB] → ∀ k, k ∈ [1, 2, 3] →
      let f := { Filler.start with stage := st, phase := .readback, word := 1, attempt := k }
      (granting (.fillerRead 0x1FE01) (filling f)).quietEnd ∧ (filling f).cell 0x1FE01 = freshWord 0 ∧
      (0 : Word) ≠ ((filling f).fillerCopy f).2.wordAt 1 ∧ f.wroteB = false) := by
  decide
theorem witness_CommitAdvances :
    ((committing .writing 254 1).quietEnd ∧ (committing .writing 255 1).quietEnd ∧
      (committing .writing 255 1).dir.state ≠ .idle ∧ (committing .writing 255 1).mig.flight = none ∧
      (committing .writing 255 1).cmd.running = none) ∧
    ((committing .readback 0 1).cell 0x1FE00 = freshWord 0 ∧ (committing .readback 1 2).dir.attempt < 3 ∧
      (0 : Word) ≠ record.wordAt 1 ∧ (committing .readback 1 3).dir.attempt = 3 ∧
      (committing .readback 1 3).quietEnd) ∧
    (let s := { ready with dir := { CommitUnit.reset with pendingFlag := true, gen := 0xFFFFFFFE } }
     s.rangeRuns = false ∧ s.scrub.backlog = 0 ∧ s.dir.gen ≠ 0xFFFFFFFF ∧ s.dev.dirReadonly = false) ∧
    (let s := granting (.dirClose 0x1FE00 (freshWord signature)) { committing .readback 255 1 with
        dir := { (committing .readback 255 1).dir with pendingFlag := true, gen := 0xFFFFFFFD } }
     s.port.stopped = false ∧ s.dir.target = some .a ∧ s.mig.flight = none ∧ s.dir.gen ≠ 0xFFFFFFFE) := by decide
/-- A migration in COMMIT_WAIT and a COMMIT wait for the commit in progress. -/
def committingFor (w : BitVec 8) (attempt : Nat) (included : Option Nat) : State :=
  { running (.commit false) (migrating { moving with phase := .commitWait, cursor := 256 }) with
    dir := { (committing .readback w attempt).dir with
      closing := w == 255, snapshot := some { record with included := included } } }
theorem witness_CommitAdvances_waiting :
    (let s := granting (.dirRead 0x1FE01) (committingFor 1 3 (some 0))
     s.quietEnd ∧ s.mig.flight.isSome = true ∧ s.map.spares[moving.spare]? = some .allocated ∧
      s.cell 0x1FE01 = freshWord 0 ∧ (0 : Word) ≠ record.wordAt 1 ∧ s.cmd.running = some (.commit false)) ∧
    (let s := granting (.dirClose 0x1FE00 (freshWord signature)) (committingFor 255 1 (some 0))
     s.quietEnd ∧ s.dir.pendingFlag = false ∧ s.mig.queue = [] ∧ (∀ e ∈ s.map.remap, e.logical ≠ moving.lam) ∧
      s.scrub.passEvent = false ∧ moving.ident = 0) ∧
    ((committingFor 255 1 none).dir.snapshot.bind (·.included) ≠ some moving.ident) ∧
    (let s := granting (.dirClose 0x1FE00 (freshWord signature)) (moved (committingFor 255 1 (some 0)))
     s.quietEnd ∧ s.mig.flight.isSome = true ∧ s.dir.state ≠ .idle ∧ s.dir.gen ≠ 0xFFFFFFFE ∧
      s.map.remap = [] ++ ⟨moving.lam, 1⟩ :: [] ∧ s.map.spares[1]? = some .inUse ∧ s.cmd.running = some (.commit false)) := by
  decide

end Sys2Proof.Tests
end

namespace Sys2Proof.Machine

/-! ### Data-register reads (R67) -/

theorem exec_dataLoRead_busFree {s : State} (n : Fin 4) (h : s.busFree) :
    exec (.dataLoRead n) s = .next (s.latched.readDataReg n false) :=
  congrArg Host.Outcome.next (State.hostRead_free h _)

theorem exec_dataHiRead_busFree {s : State} (n : Fin 4) (h : s.busFree) :
    exec (.dataHiRead n) s = .next (s.latched.readDataReg n true) :=
  congrArg Host.Outcome.next (State.hostRead_free h _)

/-- R67, the first row: a read channel outside OPEN answers 0x0000 at either register. -/
theorem State.readDataReg_of_not_opened {s : State} {n : Fin 4} (hdev : s.dev.state ≠ .fenced)
    (hreads : (s.chan n).reads = true) (hstate : (s.chan n).state ≠ .opened) (high : Bool) :
    s.readDataReg n high = s.answer 0 := by
  simp only [State.readDataReg, if_neg hdev, if_pos hreads, if_neg hstate]

/-- R67, the second row: a write channel answers in every state, OPEN included. -/
theorem State.readDataReg_of_not_reads {s : State} {n : Fin 4} (hdev : s.dev.state ≠ .fenced)
    (hreads : (s.chan n).reads = false) (high : Bool) :
    s.readDataReg n high = s.answer (if high then 0 else (s.chan n).staging) := by
  simp only [State.readDataReg, if_neg hdev, hreads, Bool.false_eq_true, if_false]

/-- Settles O28: the cycle is taken, and the register's row of R67 gives its answer. -/
theorem otherDataReads : Obligations.OtherDataReads := by
  intro s n hopen
  obtain ⟨hfree, hdev⟩ := hopen
  rw [exec_dataLoRead_busFree n hfree, exec_dataHiRead_busFree n hfree]
  constructor
  · intro hreads hstate
    have answers (high : Bool) : s.latched.readDataReg n high = s.latched.answer 0 :=
      State.readDataReg_of_not_opened (s := s.latched) hdev hreads hstate high
    rw [answers false, answers true]
    exact ⟨rfl, rfl⟩
  · intro hreads
    have answers (high : Bool) :
        s.latched.readDataReg n high = s.latched.answer (if high then 0 else (s.chan n).staging) :=
      State.readDataReg_of_not_reads (s := s.latched) hdev hreads high
    rw [answers false, answers true]
    exact ⟨rfl, rfl⟩

/-! ### The wait limit (R71) -/

/-- R71: a held read returns 0x0000, and what the channel fetched is discarded as it enters FAULT. -/
theorem State.expireWait_read {s : State} {h : HeldCycle} (hheld : s.host.held = some h) (hread : h.write = none) :
    s.expireWait = (s.unhold.answer 0).setChan h.chan
      ((s.chan h.chan).discard.fault .waitExpired (s.chan h.chan).pointer) := by
  simp only [State.expireWait, hheld, hread]

/-- R71: a held write is not accepted; the channel enters FAULT with its write queue as it was. -/
theorem State.expireWait_write {s : State} {h : HeldCycle} {v : Half} (hheld : s.host.held = some h)
    (hwrite : h.write = some v) :
    s.expireWait = s.unhold.setChan h.chan ((s.chan h.chan).fault .waitExpired (s.chan h.chan).pointer) := by
  simp only [State.expireWait, hheld, hwrite]

/-- The discard's test of the mode, as a Boolean equation. -/
theorem Channel.discard_eq (c : Channel) : c.discard = { c with readAhead := [], holds := !c.reads && c.holds } := by
  unfold Channel.discard
  cases c.reads <;> rfl

/-- R166: a channel that has entered FAULT is an interrupt source. -/
theorem State.setChan_fault_chanIrq (s : State) (n : Fin 4) (c : Channel) (k : FaultKind) (a : Addr) :
    (s.setChan n (c.fault k a)).chanIrq n = true := by
  simp [State.chanIrq, Channel.fault]

/-- Settles O33: a held read and a held write each expire by their half of R71; entering FAULT posts nothing. -/
theorem waitExpiryFaults : Obligations.WaitExpiryFaults := by
  intro s h hheld
  constructor
  · intro hread
    refine ⟨_, congrArg Host.Outcome.next (State.expireWait_read hheld hread), ?_,
      State.setChan_fault_chanIrq _ _ _ _ _, rfl⟩
    rw [Channel.discard_eq]
    rfl
  · intro v hwrite
    exact ⟨_, congrArg Host.Outcome.next (State.expireWait_write hheld hwrite), rfl,
      State.setChan_fault_chanIrq _ _ _ _ _, rfl⟩

end Sys2Proof.Machine

namespace Sys2Proof.Machine

/-! ### A COMMAND write that is taken (R175, R176) -/

/-- R175: none of the three cases of a refusal holds. -/
theorem State.commandRefused_of_commandFree {s : State} (h : s.commandFree) (c : Option Command) :
    s.commandRefused c = false := by
  obtain ⟨-, hidle, hmounting, hfenced⟩ := h
  simp [State.commandRefused, hidle, hmounting, hfenced]

theorem State.hostWrite_writeCommand_of_commandFree {s : State} (h : s.commandFree) (v : Half) :
    (s.hostWrite fun x => x.writeCommand v) = (s.latched.openCommand v).runCommand (commandOf v) := by
  have taken : s.latched.commandRefused (commandOf v) = false :=
    State.commandRefused_of_commandFree (s := s.latched) h _
  rw [State.hostWrite_free h.1, State.writeCommand, taken, if_neg Bool.false_ne_true]

/-- The detail of COMMAND_DONE: the result code fills the low byte (R199). -/
theorem commandDoneRecord_eq (field : BitVec 8) (r : Result) :
    commandDoneRecord field r =
      { kind := .commandDone, source := .command, phys := none, logical := none, offset := none,
        detail := field ++ (0#4 ++ resultCode r) } := by
  cases r <;> rfl

/-- R176: a command that completes in the event of its write. -/
theorem State.openCommand_complete (s : State) (v : Half) (r : Result) :
    (s.latched.openCommand v).complete r = s.doneAtOnce (v.extractLsb' 0 8) r := by
  rw [State.doneAtOnce, ← commandDoneRecord_eq]
  rfl

/-! ### CLEAR_FAULTS (R133, R187) -/

theorem keptByClear_iff (r : FaultRecord) : keptByClear r = true ↔ r.state = .queued ∨ r.state = .migrating := by
  simp [keptByClear]

/-- R133: a record stays in its slot or leaves the table; none moves. -/
theorem FaultTable.clear_getElem?_eq_some_iff (t : FaultTable) (i : Nat) (r : FaultRecord) :
    t.clear.slots.toList[i]? = some (some r) ↔
      t.slots.toList[i]? = some (some r) ∧ (r.state = .queued ∨ r.state = .migrating) := by
  have slots : t.clear.slots.toList = t.slots.toList.map (Option.filter keptByClear) := Vector.toList_map
  rw [slots, List.getElem?_map, ← keptByClear_iff]
  constructor
  · intro h
    obtain ⟨o, hslot, hkept⟩ := Option.map_eq_some_iff.mp h
    obtain ⟨rfl, hr⟩ := Option.filter_eq_some_iff.mp hkept
    exact ⟨hslot, hr⟩
  · rintro ⟨hslot, hr⟩
    rw [hslot, Option.map_some, Option.filter_some_pos hr]

theorem State.takeClearFaults_of_ready {s : State} (h : s.dev.state = .ready) :
    s.takeClearFaults = { s.complete .ok with faults := s.faults.clear } := by
  rw [State.takeClearFaults, if_neg (not_not_intro h)]
  rfl

theorem State.takeClearFaults_of_not_ready {s : State} (h : s.dev.state ≠ .ready) :
    s.takeClearFaults = s.complete .notReady := if_pos h

theorem exec_clearFaults_of_commandFree {s : State} (h : s.commandFree) :
    exec .clearFaults s = .next (s.latched.openCommand 0x61).takeClearFaults :=
  congrArg Host.Outcome.next (State.hostWrite_writeCommand_of_commandFree h 0x61)

theorem exec_clearFaults_of_ready {s : State} (hfree : s.commandFree) (hready : s.dev.state = .ready) :
    exec .clearFaults s = .next { s.doneAtOnce 0x61 .ok with faults := s.faults.clear } := by
  rw [exec_clearFaults_of_commandFree hfree, State.takeClearFaults_of_ready (s := s.latched.openCommand 0x61) hready,
    State.openCommand_complete]
  rfl

theorem exec_clearFaults_of_not_ready {s : State} (hfree : s.commandFree) (hstate : s.dev.state ≠ .ready) :
    exec .clearFaults s = .next (s.doneAtOnce 0x61 .notReady) := by
  rw [exec_clearFaults_of_commandFree hfree, State.takeClearFaults_of_not_ready (s := s.latched.openCommand 0x61) hstate,
    State.openCommand_complete]
  rfl

/-- Settles O42: the write is taken; in READY the table is the cleared one, whose slots the filter of R133 decides
one by one, and in another state only the completion is left. -/
theorem clearFaultsKeepsRequests : Obligations.ClearFaultsKeepsRequests := by
  intro s hfree
  exact ⟨fun hready => ⟨_, exec_clearFaults_of_ready hfree hready,
      FaultTable.clear_getElem?_eq_some_iff s.faults, rfl, rfl, rfl⟩,
    exec_clearFaults_of_not_ready hfree⟩

end Sys2Proof.Machine

namespace Sys2Proof.Machine

/-! ### What an engine keeps: the event queue's bound and the migration queue's legality (R138, R162) -/

/-! A notice to the fault table changes the fault table alone (R132). -/

theorem State.notice_eq (s : State) (b : Block) (l : List FaultState) (st : FaultState) :
    s.notice b l st = { s with faults := (s.notice b l st).faults } := by
  unfold State.notice
  split
  · split <;> rfl
  · rfl

theorem State.startNotice_eq (s : State) (b : Block) :
    s.startNotice b = { s with faults := (s.startNotice b).faults } := by
  unfold State.startNotice
  split
  · exact State.notice_eq _ _ _ _
  · split <;> rfl

@[simp] theorem State.notice_pCode (s : State) (b : Block) (l : List FaultState) (st : FaultState) : (s.notice b l st).pCode = s.pCode := by
  rw [State.notice_eq]
@[simp] theorem State.notice_array (s : State) (b : Block) (l : List FaultState) (st : FaultState) : (s.notice b l st).array = s.array := by
  rw [State.notice_eq]
@[simp] theorem State.notice_map (s : State) (b : Block) (l : List FaultState) (st : FaultState) : (s.notice b l st).map = s.map := by
  rw [State.notice_eq]
@[simp] theorem State.notice_dir (s : State) (b : Block) (l : List FaultState) (st : FaultState) : (s.notice b l st).dir = s.dir := by
  rw [State.notice_eq]
@[simp] theorem State.notice_filler (s : State) (b : Block) (l : List FaultState) (st : FaultState) : (s.notice b l st).filler = s.filler := by
  rw [State.notice_eq]
@[simp] theorem State.notice_chans (s : State) (b : Block) (l : List FaultState) (st : FaultState) : (s.notice b l st).chans = s.chans := by
  rw [State.notice_eq]
@[simp] theorem State.notice_port (s : State) (b : Block) (l : List FaultState) (st : FaultState) : (s.notice b l st).port = s.port := by
  rw [State.notice_eq]
@[simp] theorem State.notice_scrub (s : State) (b : Block) (l : List FaultState) (st : FaultState) : (s.notice b l st).scrub = s.scrub := by
  rw [State.notice_eq]
@[simp] theorem State.notice_spareCtrl (s : State) (b : Block) (l : List FaultState) (st : FaultState) : (s.notice b l st).spareCtrl = s.spareCtrl := by
  rw [State.notice_eq]
@[simp] theorem State.notice_mig (s : State) (b : Block) (l : List FaultState) (st : FaultState) : (s.notice b l st).mig = s.mig := by
  rw [State.notice_eq]
@[simp] theorem State.notice_events (s : State) (b : Block) (l : List FaultState) (st : FaultState) : (s.notice b l st).events = s.events := by
  rw [State.notice_eq]
@[simp] theorem State.notice_irq (s : State) (b : Block) (l : List FaultState) (st : FaultState) : (s.notice b l st).irq = s.irq := by
  rw [State.notice_eq]
@[simp] theorem State.notice_dev (s : State) (b : Block) (l : List FaultState) (st : FaultState) : (s.notice b l st).dev = s.dev := by
  rw [State.notice_eq]
@[simp] theorem State.notice_cmd (s : State) (b : Block) (l : List FaultState) (st : FaultState) : (s.notice b l st).cmd = s.cmd := by
  rw [State.notice_eq]
@[simp] theorem State.notice_host (s : State) (b : Block) (l : List FaultState) (st : FaultState) : (s.notice b l st).host = s.host := by
  rw [State.notice_eq]
@[simp] theorem State.notice_choices (s : State) (b : Block) (l : List FaultState) (st : FaultState) : (s.notice b l st).choices = s.choices := by
  rw [State.notice_eq]
@[simp] theorem State.startNotice_pCode (s : State) (b : Block) : (s.startNotice b).pCode = s.pCode := by
  rw [State.startNotice_eq]
@[simp] theorem State.startNotice_array (s : State) (b : Block) : (s.startNotice b).array = s.array := by
  rw [State.startNotice_eq]
@[simp] theorem State.startNotice_map (s : State) (b : Block) : (s.startNotice b).map = s.map := by
  rw [State.startNotice_eq]
@[simp] theorem State.startNotice_dir (s : State) (b : Block) : (s.startNotice b).dir = s.dir := by
  rw [State.startNotice_eq]
@[simp] theorem State.startNotice_filler (s : State) (b : Block) : (s.startNotice b).filler = s.filler := by
  rw [State.startNotice_eq]
@[simp] theorem State.startNotice_chans (s : State) (b : Block) : (s.startNotice b).chans = s.chans := by
  rw [State.startNotice_eq]
@[simp] theorem State.startNotice_port (s : State) (b : Block) : (s.startNotice b).port = s.port := by
  rw [State.startNotice_eq]
@[simp] theorem State.startNotice_scrub (s : State) (b : Block) : (s.startNotice b).scrub = s.scrub := by
  rw [State.startNotice_eq]
@[simp] theorem State.startNotice_spareCtrl (s : State) (b : Block) : (s.startNotice b).spareCtrl = s.spareCtrl := by
  rw [State.startNotice_eq]
@[simp] theorem State.startNotice_mig (s : State) (b : Block) : (s.startNotice b).mig = s.mig := by
  rw [State.startNotice_eq]
@[simp] theorem State.startNotice_events (s : State) (b : Block) : (s.startNotice b).events = s.events := by
  rw [State.startNotice_eq]
@[simp] theorem State.startNotice_irq (s : State) (b : Block) : (s.startNotice b).irq = s.irq := by
  rw [State.startNotice_eq]
@[simp] theorem State.startNotice_dev (s : State) (b : Block) : (s.startNotice b).dev = s.dev := by
  rw [State.startNotice_eq]
@[simp] theorem State.startNotice_cmd (s : State) (b : Block) : (s.startNotice b).cmd = s.cmd := by
  rw [State.startNotice_eq]
@[simp] theorem State.startNotice_host (s : State) (b : Block) : (s.startNotice b).host = s.host := by
  rw [State.startNotice_eq]
@[simp] theorem State.startNotice_choices (s : State) (b : Block) : (s.startNotice b).choices = s.choices := by
  rw [State.startNotice_eq]

/-- A record offered to a legal queue leaves a legal one: it joins, or the queue is full and stays full (R162). -/
theorem Events.legal_offer {e : Events} (h : e.legal) (r : EventRecord) : (e.offer r).legal := by
  obtain ⟨hlen, hlost⟩ := h
  unfold Events.offer
  split
  · rename_i hroom
    refine ⟨by simpa using hroom, fun hne => ?_⟩
    have := hlost hne
    omega
  · rename_i hfull
    exact ⟨hlen, fun _ => by dsimp only; omega⟩

theorem Events.legal_pop {e : Events} (h : e.legal) : e.pop.legal := by
  obtain ⟨hlen, hlost⟩ := h
  unfold Events.pop
  split
  · exact ⟨hlen, hlost⟩
  · rename_i r rest hq
    rw [hq, List.length_cons] at hlen hlost
    split
    · rename_i hzero
      exact ⟨by dsimp only; omega, fun hne => absurd hzero hne⟩
    · exact ⟨by simpa using hlen, fun hne => absurd rfl hne⟩

theorem MigEngine.legal_setIdle {e : MigEngine} (h : e.legal) : ({ e with flight := none } : MigEngine).legal := by
  obtain ⟨hlen, hnodup, -⟩ := h
  exact ⟨hlen, hnodup, by simp⟩

theorem MigEngine.legal_of_empty {e : MigEngine} (h : e.queue = []) : e.legal := by
  simp [MigEngine.legal, h]

theorem Events.legal_empty : Events.empty.legal := by decide

/-- The migration in flight may change in everything but its logical block. -/
theorem MigEngine.legal_setFlight {e : MigEngine} (h : e.legal) {m m' : Migration} (hm : e.flight = some m)
    (hlam : m'.lam = m.lam) (k : Nat) :
    ({ e with flight := some m', nextId := k } : MigEngine).legal := by
  obtain ⟨hlen, hnodup, hflight⟩ := h
  refine ⟨hlen, hnodup, fun x hx => ?_⟩
  obtain rfl := Option.mem_some_iff.mp hx
  rw [hlam]
  exact hflight m hm

/-- Requests may leave the queue. -/
theorem MigEngine.legal_filter {e : MigEngine} (h : e.legal) (p : MigRequest → Bool) :
    ({ e with queue := e.queue.filter p } : MigEngine).legal := by
  obtain ⟨hlen, hnodup, hflight⟩ := h
  have hsub : (e.queue.filter p).Sublist e.queue := List.filter_sublist
  exact ⟨hsub.length_le.trans hlen, hnodup.sublist (hsub.map _),
    fun m hm hmem => hflight m hm ((hsub.map _).subset hmem)⟩

/-- R142: a start posts nothing, and the engine flies the block from its home onto the spare. -/
theorem State.startWith_events (s : State) (lam : Block) (k : Nat) : (s.startWith lam k).events = s.events := by
  simp [State.startWith]

theorem State.startWith_mig (s : State) (lam : Block) (k : Nat) :
    (s.startWith lam k).mig = { s.mig with
      flight := some { phase := .copy, lam := lam, source := s.home lam, spare := k, cursor := 0, poison := 0,
                       attempt := 1, ident := s.mig.nextId }
      nextId := s.mig.nextId + 1 } := by
  simp [State.startWith]

/-- What a start leaves of a list of requests is legal, whatever the queue was before. -/
theorem startFrom_mig_legal {l : List MigRequest} {s : State} (hlen : l.length ≤ 8)
    (hnodup : (l.map (·.block)).Nodup) : (startFrom l s).mig.legal := by
  induction l generalizing s with
  | nil => exact MigEngine.legal_of_empty rfl
  | cons r rest ih =>
    obtain ⟨hhead, hrest⟩ := List.nodup_cons.mp hnodup
    have hlen' : rest.length ≤ 8 := (Nat.le_succ _).trans hlen
    rw [Machine.startFrom]
    split
    · rw [State.startWith_mig]
      refine ⟨hlen', hrest, fun m hm => ?_⟩
      obtain rfl := Option.mem_some_iff.mp hm
      exact hhead
    · exact ih hlen' hrest

/-- R139: a request is accepted for a block neither in flight nor queued, below 8 entries. -/
theorem State.migAnswer_accepted_iff (s : State) (lam : Block) : s.migAnswer lam = .accepted ↔
    (∀ m ∈ s.mig.flight, m.lam ≠ lam) ∧ (∀ r ∈ s.mig.queue, r.block ≠ lam) ∧ s.mig.queue.length < 8 := by
  unfold State.migAnswer
  split
  · rename_i hdup
    simp only [reduceCtorEq, false_iff, not_and]
    intro hflight hqueue
    rcases Bool.or_eq_true_iff.mp hdup with h | h
    · obtain ⟨m, hm, heq⟩ := (Option.any_eq_true _ _).mp h
      exact absurd (beq_iff_eq.mp heq) (hflight m hm)
    · obtain ⟨r, hr, heq⟩ := List.any_eq_true.mp h
      exact absurd (beq_iff_eq.mp heq) (hqueue r hr)
  · rename_i hnew
    simp only [Bool.or_eq_true, not_or, Bool.not_eq_true, Option.any_eq_false, List.any_eq_false, beq_iff_eq] at hnew
    split
    · rename_i hfull
      simp only [reduceCtorEq, false_iff, not_and]
      omega
    · rename_i hroom
      exact ⟨fun _ => ⟨fun m hm => by simpa using hnew.1 m hm, hnew.2, by omega⟩, fun _ => rfl⟩

/-- An accepted request keeps the queue legal. -/
theorem MigEngine.legal_append {e : MigEngine} (h : e.legal) {b : Block} (o : Origin)
    (hflight : ∀ m ∈ e.flight, m.lam ≠ b) (hqueue : ∀ r ∈ e.queue, r.block ≠ b) (hlen : e.queue.length < 8) :
    ({ e with queue := e.queue ++ [{ block := b, origin := o }] } : MigEngine).legal := by
  obtain ⟨-, hnodup, hdisjoint⟩ := h
  refine ⟨by simpa using hlen, ?_, fun m hm => ?_⟩
  · rw [List.map_append]
    refine List.nodup_append'.mpr ⟨hnodup, by simp, ?_⟩
    simpa [List.disjoint_singleton] using hqueue
  · rw [List.map_append, List.mem_append, not_or]
    exact ⟨hdisjoint m hm, by simpa using hflight m hm⟩

/-- `t` keeps what `s` has of the two queues' legality. -/
structure LegalKept (s t : State) : Prop where
  events : s.events.legal → t.events.legal
  mig : s.mig.legal → t.mig.legal

namespace LegalKept

theorem of_eq {s t : State} (he : t.events = s.events) (hm : t.mig = s.mig) : LegalKept s t :=
  ⟨fun h => he ▸ h, fun h => hm ▸ h⟩

theorem refl (s : State) : LegalKept s s := of_eq rfl rfl

theorem trans {s t u : State} (h : LegalKept s t) (k : LegalKept t u) : LegalKept s u :=
  ⟨k.events ∘ h.events, k.mig ∘ h.mig⟩

variable (s : State)

theorem setSpare (k : Nat) (st : SpareState) : LegalKept s (s.setSpare k st) := of_eq rfl rfl
theorem clearTicks : LegalKept s s.clearTicks := of_eq rfl rfl
theorem setReadonly : LegalKept s s.setReadonly := of_eq rfl rfl
theorem commitIdle : LegalKept s s.commitIdle := of_eq rfl rfl
theorem mapActivate (m : Migration) : LegalKept s (s.mapActivate m) := of_eq rfl rfl
theorem setDir (d : CommitUnit) : LegalKept s { s with dir := d } := of_eq rfl rfl
theorem setFaults (t : FaultTable) : LegalKept s { s with faults := t } := of_eq rfl rfl
theorem setScrub (c : Scrub) : LegalKept s { s with scrub := c } := of_eq rfl rfl
theorem setCmd (c : CommandEngine) : LegalKept s { s with cmd := c } := of_eq rfl rfl
theorem setChoices (n : Nat) : LegalKept s { s with choices := n } := of_eq rfl rfl
theorem setMig {e : MigEngine} (h : s.mig.legal → e.legal) : LegalKept s { s with mig := e } := ⟨id, h⟩

theorem post (r : EventRecord) : LegalKept s (s.post r) := ⟨fun h => Events.legal_offer h r, id⟩

theorem complete (r : Result) : LegalKept s (s.complete r) := ⟨fun h => Events.legal_offer h _, id⟩

theorem tellCommitSuccess : LegalKept s s.tellCommitSuccess := by
  unfold State.tellCommitSuccess
  split
  · exact complete s _
  · exact refl s

theorem tellCommitFailure : LegalKept s s.tellCommitFailure := by
  unfold State.tellCommitFailure
  split
  · exact complete s _
  · exact refl s

/-! ### The migration engine -/

theorem notice (b : Block) (l : List FaultState) (st : FaultState) : LegalKept s (s.notice b l st) :=
  of_eq (s.notice_events b l st) (s.notice_mig b l st)

theorem setIdle : LegalKept s { s with mig := { s.mig with flight := none } } :=
  setMig s MigEngine.legal_setIdle

theorem startFrom_events {l : List MigRequest} {s : State} (h : s.events.legal) :
    (Machine.startFrom l s).events.legal := by
  induction l generalizing s with
  | nil => exact h
  | cons r rest ih =>
    rw [Machine.startFrom]
    split
    · rwa [State.startWith_events]
    · exact ih (((notice s _ _ _).trans (post _ _)).events h)

theorem tryStart : LegalKept s s.tryStart := by
  unfold State.tryStart
  split
  · exact ⟨startFrom_events, fun ⟨hlen, hnodup, _⟩ => startFrom_mig_legal hlen hnodup⟩
  · exact refl s

theorem requestMigration (lam : Block) (o : Origin) : LegalKept s (s.requestMigration lam o) := by
  unfold State.requestMigration
  split
  · rename_i haccepted
    obtain ⟨hflight, hqueue, hlen⟩ := (s.migAnswer_accepted_iff lam).mp haccepted
    exact ((setMig s fun h => MigEngine.legal_append h o hflight hqueue hlen).trans
      (notice _ _ _ _)).trans (tryStart _)
  · exact refl s

theorem release (k : Nat) : LegalKept s (s.release k) := by
  unfold State.release
  split
  · exact setSpare s _ _
  · exact refl s

theorem abandon (m : Migration) (r : AbandonReason) : LegalKept s (s.abandon m r) := by
  unfold State.abandon
  refine (((LegalKept.trans ?_ (notice _ _ _ _)).trans (post _ _)).trans (setIdle _)).trans (tryStart _)
  split
  · exact release s _
  · exact release s _
  · exact refl s
  · exact refl s

theorem abandonWaiting : LegalKept s s.abandonWaiting := by
  unfold State.abandonWaiting
  split
  · split
    · exact abandon s _ _
    · exact refl s
  · exact refl s

theorem cancelMigration (lam : Block) : LegalKept s (s.cancelMigration lam) := by
  unfold State.cancelMigration
  split
  · exact (setMig s fun h => MigEngine.legal_filter h _).trans (notice _ _ _ _)
  · split
    · split
      · exact abandon s _ _
      · exact refl s
    · exact refl s

theorem softResetMigration : LegalKept s s.softResetMigration := by
  have hclear : LegalKept s { s with mig := { s.mig with queue := [] } } :=
    setMig s fun _ => MigEngine.legal_of_empty rfl
  unfold State.softResetMigration
  split
  · split
    · exact hclear
    · exact (hclear.trans (release _ _)).trans (setIdle _)
  · exact hclear

/-! ### The commit unit -/

theorem failCommit (r : EventRecord) : LegalKept s (s.failCommit r) :=
  (((((setReadonly s).trans (post _ r)).trans (abandonWaiting _)).trans (setDir _ _)).trans
    (tellCommitFailure _)).trans (commitIdle _)

theorem startCommit : LegalKept s s.startCommit := by
  unfold State.startCommit
  split
  · exact failCommit s _
  · exact setDir s _

theorem requestCommit : LegalKept s s.requestCommit := by
  unfold State.requestCommit
  split
  · split
    · exact refl s
    · exact startCommit s
  · exact setDir s _

theorem attemptFailed : LegalKept s s.attemptFailed := by
  unfold State.attemptFailed
  split
  · exact setDir s _
  · exact failCommit s _

theorem dirFinding (c : Copy) : LegalKept s (s.dirFinding c) := by
  unfold State.dirFinding
  split
  · dsimp only
    split
    · exact setDir s _
    · exact (setDir s _).trans (requestCommit _)
  · exact refl s

theorem markCondemned (k : Nat) (src : Source) : LegalKept s (s.markCondemned k src) :=
  (setSpare s _ _).trans (post _ _)

theorem condemn (k : Nat) (st : SpareState) (src : Source) : LegalKept s (s.condemn k st src) := by
  unfold State.condemn
  split
  · exact (markCondemned s _ _).trans (requestCommit _)
  · exact refl s

theorem activate (m : Migration) : LegalKept s (s.activate m) := by
  unfold State.activate
  dsimp only
  split
  · split
    · exact ((mapActivate s m).trans (markCondemned _ _ _)).trans (setDir _ _)
    · exact mapActivate s m
  · exact mapActivate s m

theorem completeMigration (m : Migration) : LegalKept s (s.completeMigration m) :=
  ((((activate s m).trans (notice _ _ _ _)).trans (post _ _)).trans (setIdle _)).trans (tryStart _)

theorem completeIncluded : LegalKept s s.completeIncluded := by
  unfold State.completeIncluded
  split
  · split
    · exact completeMigration s _
    · exact refl s
  · exact refl s

theorem recordCommit : LegalKept s s.recordCommit := by
  unfold State.recordCommit
  split <;> exact setDir s _

theorem postCommitDone : LegalKept s s.postCommitDone := by
  unfold State.postCommitDone
  split
  · exact post s _
  · exact refl s

theorem advanceWait : LegalKept s s.advanceWait := by
  unfold State.advanceWait
  split
  · exact setCmd s _
  · exact refl s

theorem nextCommit : LegalKept s s.nextCommit := by
  unfold State.nextCommit
  split
  · exact ((advanceWait s).trans (setDir _ _)).trans (startCommit _)
  · exact commitIdle s

theorem commitSuccess : LegalKept s s.commitSuccess :=
  ((((recordCommit s).trans (postCommitDone _)).trans (completeIncluded _)).trans (tellCommitSuccess _)).trans
    (nextCommit _)

theorem dirWritten : LegalKept s s.dirWritten := by
  unfold State.dirWritten
  split <;> exact setDir s _

theorem dirReadBack (r : DecodeResult) : LegalKept s (s.dirReadBack r) := by
  unfold State.dirReadBack
  split
  · split <;> exact setDir s _
  · exact attemptFailed s

/-! ### Free orders and reports -/

theorem eitherWay {f g : State → State} (hf : ∀ x, LegalKept x (f x)) (hg : ∀ x, LegalKept x (g x)) :
    LegalKept s (s.eitherWay f g) := by
  rcases s.eitherWay_cases f g with h | h <;> rw [h]
  · exact ((setChoices s _).trans (hf _)).trans (hg _)
  · exact ((setChoices s _).trans (hg _)).trans (hf _)

theorem testRecord (b : Block) : LegalKept s (s.testRecord b) := by
  unfold State.testRecord
  split
  · exact refl s
  · split
    · exact refl s
    · split
      · split
        · exact requestMigration s _ _
        · exact refl s
      · split
        · split
          · exact condemn s _ _ _
          · exact refl s
        · exact refl s

theorem postCorrected (rep : Report) (l : Option Block) (d : Half) : LegalKept s (s.postCorrected rep l d) := by
  unfold State.postCorrected
  split
  · exact post s _
  · exact refl s

theorem untrackedReport (rep : Report) : LegalKept s (s.untrackedReport rep) := by
  unfold State.untrackedReport
  dsimp only
  split
  · exact (setFaults s _).trans (postCorrected _ _ _ _)
  · exact ((setFaults s _).trans (post _ _)).trans (postCorrected _ _ _ _)

theorem takeReport (rep : Report) : LegalKept s (s.takeReport rep) := by
  unfold State.takeReport
  split
  · exact untrackedReport s _
  · dsimp only
    split
    · exact (setFaults s _).trans (eitherWay _ (fun x => postCorrected x _ _ _) fun x => testRecord x _)
    · exact (setFaults s _).trans (testRecord _ _)

theorem foldl {fs : List (State → State)} (h : ∀ f ∈ fs, ∀ x, LegalKept x (f x)) :
    LegalKept s (fs.foldl (fun x g => g x) s) := by
  induction fs generalizing s with
  | nil => exact refl s
  | cons f rest ih => exact (h f List.mem_cons_self s).trans (ih _ fun g hg => h g (List.mem_cons_of_mem _ hg))

theorem insertReport (rep : Report) {fs : List (State → State)} (h : ∀ f ∈ fs, ∀ x, LegalKept x (f x)) :
    LegalKept s (insertReport rep fs s) := by
  induction fs generalizing s with
  | nil => exact takeReport s rep
  | cons f rest ih =>
    have hrest : ∀ g ∈ rest, ∀ x, LegalKept x (g x) := fun g hg => h g (List.mem_cons_of_mem _ hg)
    rw [Machine.insertReport]
    split
    · exact (((setChoices s _).trans (takeReport _ _)).trans (h f List.mem_cons_self _)).trans (foldl _ hrest)
    · exact ((setChoices s _).trans (h f List.mem_cons_self _)).trans (ih _ hrest)

theorem reportOnly (rep : Option Report) : LegalKept s (s.reportOnly rep) := by
  unfold State.reportOnly
  split
  · exact takeReport s _
  · exact refl s

/-! ### The scrub engine -/

theorem completeSlice : LegalKept s s.completeSlice := by
  unfold State.completeSlice
  dsimp only
  split
  · split
    · exact (setScrub s _).trans (post _ _)
    · exact setScrub s _
  · exact setScrub s _

theorem skipSlices (n : Nat) : LegalKept s (skipSlices n s) := by
  induction n generalizing s with
  | zero => exact refl s
  | succ n ih =>
    rw [Machine.skipSlices]
    split
    · exact (completeSlice s).trans (ih _)
    · exact refl s

theorem endRange : LegalKept s s.endRange := by
  unfold State.endRange
  dsimp only
  split
  · exact (setScrub s _).trans (complete _ _)
  · exact setScrub s _

theorem advanceRange (r : RangeRun) (a : Addr) : LegalKept s (s.advanceRange r a) := by
  unfold State.advanceRange
  split
  · exact endRange s
  · exact setScrub s _

theorem skipBlocks (n : Nat) : LegalKept s (skipBlocks n s) := by
  induction n generalizing s with
  | zero => exact refl s
  | succ n ih =>
    rw [Machine.skipBlocks]
    split
    · exact refl s
    · split
      · exact (advanceRange s _ _).trans (ih _)
      · exact refl s

theorem scrubSettle : LegalKept s s.scrubSettle := by
  unfold State.scrubSettle
  split
  · exact refl s
  · exact (skipBlocks s _).trans (skipSlices _ _)

theorem offerCredit : LegalKept s s.offerCredit := by
  unfold State.offerCredit
  dsimp only
  split
  · split
    · exact setScrub s _
    · exact (setScrub s _).trans (post _ _)
  · exact setScrub s _

theorem timerExpires : LegalKept s s.timerExpires :=
  ((clearTicks s).trans (offerCredit _)).trans (scrubSettle _)

theorem scrubCount (a : Addr) (r : DecodeResult) (w : Bool) : LegalKept s (s.scrubCount a r w) := by
  unfold State.scrubCount
  split
  · exact setScrub s _
  · exact post s _
  · exact refl s

theorem scrubHandOff (a : Addr) (r : DecodeResult) : LegalKept s (s.scrubHandOff a r) := by
  unfold State.scrubHandOff
  split
  · exact refl s
  · split
    · exact condemn s _ _ _
    · exact dirFinding s _
    · exact dirFinding s _
    · exact refl s

theorem scrubProgress (a : Addr) (range : Bool) : LegalKept s (s.scrubProgress a range) := by
  unfold State.scrubProgress
  split
  · split
    · exact advanceRange s _ _
    · exact refl s
  · split
    · exact completeSlice s
    · exact setScrub s _

theorem scrubResult (a : Addr) (range w : Bool) (r : DecodeResult) : LegalKept s (s.scrubResult a range w r) := by
  unfold State.scrubResult
  split
  · apply insertReport
    intro f hf x
    simp only [List.mem_cons, List.not_mem_nil, or_false] at hf
    rcases hf with rfl | rfl | rfl
    · exact scrubCount x _ _ _
    · exact scrubHandOff x _ _
    · exact scrubProgress x _ _
  · exact ((scrubCount s _ _ _).trans (scrubHandOff _ _ _)).trans (scrubProgress _ _ _)

/-! ### The migration engine's grants

The engine acts on the migration in flight, so its block stays the one the queue must not name. -/

variable {s} {m : Migration}

theorem setFlight (hm : s.mig.flight = some m) {m' : Migration} (hlam : m'.lam = m.lam) :
    LegalKept s { s with mig := { s.mig with flight := some m' } } :=
  setMig s fun h => MigEngine.legal_setFlight h hm hlam _

end LegalKept

/-! ### The engine outside COMMIT_WAIT -/

/-- Only a migration in COMMIT_WAIT is abandoned by a commit that fails (R48, R152). -/
theorem State.abandonWaiting_of_none {s : State} (h : s.waitingMigration = none) : s.abandonWaiting = s := by
  unfold State.abandonWaiting
  split
  · rename_i m hm
    rw [State.waitingMigration, hm] at h
    exact if_neg fun hwait => by simp [hwait] at h
  · rfl

theorem State.tellCommitFailure_mig (s : State) : s.tellCommitFailure.mig = s.mig := by
  unfold State.tellCommitFailure
  split <;> rfl

/-- R20, R42: with no migration in COMMIT_WAIT a condemnation, whatever commit it starts or fails, leaves the migration
engine as it was. -/
theorem State.requestCommit_mig {s : State} (h : s.waitingMigration = none) : s.requestCommit.mig = s.mig := by
  unfold State.requestCommit
  split
  · split
    · rfl
    · unfold State.startCommit
      split
      · have hnone : (s.setReadonly.post (commitRecord .commitFailed none 0)).waitingMigration = none := h
        unfold State.failCommit
        dsimp only
        rw [State.abandonWaiting_of_none hnone, State.commitIdle_mig, State.tellCommitFailure_mig]
        rfl
      · rfl
  · rfl

theorem State.condemn_mig {s : State} (h : s.waitingMigration = none) (k : Nat) (st : SpareState) (src : Source) :
    (s.condemn k st src).mig = s.mig := by
  unfold State.condemn
  split
  · exact State.requestCommit_mig (s := s.markCondemned k src) h
  · rfl

theorem State.waitingMigration_none_of_phase {s : State} {m : Migration} (hm : s.mig.flight = some m)
    (hphase : m.phase ≠ .commitWait) : s.waitingMigration = none := by
  simp [State.waitingMigration, hm, hphase]

namespace LegalKept
variable {s : State} {m : Migration}

theorem copyResult (src : Addr) (k : Nat) (r : DecodeResult) : LegalKept s (s.copyResult src k r) := by
  unfold State.copyResult
  split
  · rename_i m hm
    split
    · dsimp only
      split
      · refine (setFlight hm ?_).trans (post _ _)
        rfl
      · exact setFlight hm rfl
    · exact refl s
  · exact refl s

theorem retryMigration (hm : s.mig.flight = some m) (k : Nat) : LegalKept s (s.retryMigration m k) := by
  refine ((setSpare s k _).trans (setMig _ fun h => MigEngine.legal_setFlight h hm ?_ _)).trans (post _ _)
  rfl

theorem verifyFailed (hm : s.mig.flight = some m) (hphase : m.phase ≠ .commitWait) :
    LegalKept s (s.verifyFailed m) := by
  have hflight : (s.condemn m.spare .allocated .migrate).mig.flight = some m := by
    rw [State.condemn_mig (State.waitingMigration_none_of_phase hm hphase), hm]
  unfold State.verifyFailed
  dsimp only
  split
  · split
    · exact (condemn s _ _ _).trans (retryMigration hflight _)
    · exact (condemn s _ _ _).trans (abandon _ _ _)
  · exact (condemn s _ _ _).trans (abandon _ _ _)

theorem enterCommitWait (hm : s.mig.flight = some m) : LegalKept s (s.enterCommitWait m) := by
  unfold State.enterCommitWait
  dsimp only
  split
  · refine (setFlight hm ?_).trans (abandonWaiting _)
    rfl
  · refine (setFlight hm ?_).trans (requestCommit _)
    rfl

theorem verifyResult (k : Nat) (r : DecodeResult) : LegalKept s (s.verifyResult k r) := by
  unfold State.verifyResult
  split
  · rename_i m hm
    split
    · rename_i hverify
      split
      · split
        · exact setFlight hm rfl
        · exact enterCommitWait hm
      · exact verifyFailed hm (by simp [hverify.1])
    · exact refl s
  · exact refl s

theorem mirrorMark (mi : Option Mirror) : LegalKept s (s.mirrorMark mi) := by
  unfold State.mirrorMark
  split
  · rename_i x m hm
    split
    · exact setFlight hm rfl
    · exact refl s
  · exact refl s

end LegalKept

end Sys2Proof.Machine

namespace Sys2Proof.Machine

/-! ### What an event keeps of a channel (R55, R62, R76) -/

namespace Channel

/-- A channel with nothing fetched is legal when its write queue is within its bound. -/
theorem legal_of_empty {c : Channel} (hread : c.readAhead = []) (hwrite : c.writeQ.length ≤ 4) : c.legal := by
  simp [Channel.legal, hread, hwrite]

/-- A legal channel stays legal when its queues do not grow, its mode stays, no grant begins, and it is CLOSED or
DRAINING only where it was or where nothing is fetched. -/
theorem legal_of_shrink {c d : Channel} (h : c.legal) (hread : d.readAhead.length ≤ c.readAhead.length)
    (hwrite : d.writeQ.length ≤ c.writeQ.length) (hholds : d.holds = true → c.holds = true)
    (hmode : d.mode = c.mode)
    (hstate : d.state = .closed ∨ d.state = .draining → c.state = .closed ∨ c.state = .draining) : d.legal := by
  obtain ⟨hr, hw, hh, he⟩ := h
  refine ⟨hread.trans hr, hwrite.trans hw, fun hd => hread.trans (hh (hholds hd)), fun hd => ?_⟩
  have hempty : c.readAhead = [] := he <| by
    rcases hd with hd | hd | hd
    · exact (hstate (.inl hd)).imp_right .inl
    · exact (hstate (.inr hd)).imp_right .inl
    · exact .inr (.inr (by simpa [Channel.reads, hmode] using hd))
  simpa [hempty] using hread

variable {c : Channel}

theorem legal_reset : Channel.reset.legal := legal_of_empty rfl (by decide)

theorem legal_discard (h : c.legal) : c.discard.legal := legal_of_empty rfl h.2.1

theorem legal_fault (h : c.legal) (k : FaultKind) (a : Addr) : (c.fault k a).legal :=
  legal_of_shrink h le_rfl le_rfl id rfl (by simp [Channel.fault])

theorem legal_loadSettings (h : c.legal) (hclosed : c.state = .closed) (v : Half) : (c.loadSettings v).legal :=
  legal_of_empty (h.2.2.2 (.inl hclosed)) h.2.1

theorem legal_openTaken : c.openTaken.legal := legal_of_empty rfl (by simp [Channel.openTaken])

theorem legal_close (h : c.legal) : c.close.legal := legal_of_empty rfl h.2.1

theorem legal_resumeAt (h : c.legal) (a : Addr) : (c.resumeAt a).legal := by
  unfold Channel.resumeAt
  dsimp only
  split <;> exact legal_of_empty rfl h.2.1

theorem legal_skip (h : c.legal) : c.skip.legal := by
  unfold Channel.skip
  split
  · exact legal_resumeAt h _
  · exact legal_of_empty rfl h.2.1

theorem legal_movePointer (h : c.legal) (a : Addr) : (c.movePointer a).legal := by
  have hempty (d : Channel) (hr : d.readAhead = []) (hw : d.writeQ = c.writeQ) : d.legal :=
    legal_of_empty hr (hw ▸ h.2.1)
  unfold Channel.movePointer
  dsimp only
  split
  · split <;> exact hempty _ rfl rfl
  · split <;> exact hempty _ rfl rfl
  · split <;> exact hempty _ rfl rfl
  · exact h
  · exact h

theorem legal_dropWord (h : c.legal) (a : Addr) : (c.dropWord a).legal := by
  unfold Channel.dropWord
  split
  · split
    · exact legal_of_shrink h (List.length_take_le' _ _) le_rfl (by simp) rfl id
    · split
      · exact legal_of_shrink h le_rfl le_rfl (by simp) rfl id
      · exact h
  · exact h

end Channel

/-- The bounds of every channel after one channel's context is replaced by a legal one. -/
theorem State.chansLegal_setChan {s : State} (h : s.chansLegal) {n : Fin 4} {c : Channel} (hc : c.legal) :
    (s.setChan n c).chansLegal := by
  intro m
  rw [State.setChan_chan]
  split
  · exact hc
  · exact h m

end Sys2Proof.Machine

namespace Sys2Proof.Machine

/-- R80: an acceptance drops nothing at its own channel. -/
theorem State.dropOthers_chan_self (s : State) (n : Fin 4) (a : Addr) : (s.dropOthers n a).chan n = s.chan n := by
  simp [State.chan, State.dropOthers]

/-! ### Three grades of what an event leaves alone

`LeavesPort`: the array, the port and the device state are as they were. `LeavesArray`: the array is as it was.
`KeepsLegal`: the array keeps its canonical form. Each also keeps the commands that wait and the legality of the
channels, the event queue and the migration queue. -/

structure LeavesPort (s t : State) : Prop extends LegalKept s t where
  array : t.array = s.array
  port : t.port = s.port
  state : t.dev.state = s.dev.state
  pending : t.pending = s.pending
  chans : s.chansLegal → t.chansLegal

structure LeavesArray (s t : State) : Prop extends LegalKept s t where
  array : t.array = s.array
  pending : t.pending = s.pending
  chans : s.chansLegal → t.chansLegal

structure KeepsLegal (s t : State) : Prop extends LegalKept s t where
  array : s.array.wf = true → t.array.wf = true
  pending : t.pending = s.pending
  chans : s.chansLegal → t.chansLegal

namespace KeepsLegal

theorem refl (s : State) : KeepsLegal s s := ⟨LegalKept.refl s, id, rfl, id⟩

theorem trans {s t u : State} (h : KeepsLegal s t) (k : KeepsLegal t u) : KeepsLegal s u :=
  ⟨h.toLegalKept.trans k.toLegalKept, k.array ∘ h.array, k.pending.trans h.pending, k.chans ∘ h.chans⟩

end KeepsLegal

namespace LeavesArray

theorem keepsLegal {s t : State} (h : LeavesArray s t) : KeepsLegal s t :=
  ⟨h.toLegalKept, fun hwf => h.array ▸ hwf, h.pending, h.chans⟩

theorem refl (s : State) : LeavesArray s s := ⟨LegalKept.refl s, rfl, rfl, id⟩

theorem trans {s t u : State} (h : LeavesArray s t) (k : LeavesArray t u) : LeavesArray s u :=
  ⟨h.toLegalKept.trans k.toLegalKept, k.array.trans h.array, k.pending.trans h.pending, k.chans ∘ h.chans⟩

/-- An update of nothing that the grades speak of. -/
theorem of_eq {s t : State} (he : t.events = s.events) (hm : t.mig = s.mig) (ha : t.array = s.array)
    (hp : t.pending = s.pending) (hc : t.chans = s.chans) : LeavesArray s t :=
  ⟨LegalKept.of_eq he hm, ha, hp, fun h n => by rw [State.chan, hc]; exact h n⟩

end LeavesArray

namespace LeavesPort

theorem leavesArray {s t : State} (h : LeavesPort s t) : LeavesArray s t :=
  ⟨h.toLegalKept, h.array, h.pending, h.chans⟩

theorem keepsLegal {s t : State} (h : LeavesPort s t) : KeepsLegal s t := h.leavesArray.keepsLegal

theorem refl (s : State) : LeavesPort s s := ⟨LegalKept.refl s, rfl, rfl, rfl, rfl, id⟩

theorem trans {s t u : State} (h : LeavesPort s t) (k : LeavesPort t u) : LeavesPort s u :=
  ⟨h.toLegalKept.trans k.toLegalKept, k.array.trans h.array, k.port.trans h.port, k.state.trans h.state,
    k.pending.trans h.pending, k.chans ∘ h.chans⟩

/-- The engines behind the port leave it alone. -/
theorem of_engines {s t : State} (h : OnlyEngines s t) (k : LegalKept s t) : LeavesPort s t :=
  ⟨k, h.array, h.port, h.state, h.pending, fun hc n => by rw [State.chan, h.chans]; exact hc n⟩

/-- Replacing one channel's context by a legal one leaves the port alone. -/
theorem setChan_of (s : State) {n : Fin 4} {c : Channel} (hc : s.chansLegal → c.legal) :
    LeavesPort s (s.setChan n c) :=
  ⟨LegalKept.of_eq rfl rfl, rfl, rfl, rfl, rfl, fun h => State.chansLegal_setChan h (hc h)⟩

variable (s : State)

theorem setHost (p : HostPort) : LeavesPort s { s with host := p } := ⟨LegalKept.of_eq rfl rfl, rfl, rfl, rfl, rfl, id⟩
theorem setDiag (d : Diag) : LeavesPort s { s with diag := d } := ⟨LegalKept.of_eq rfl rfl, rfl, rfl, rfl, rfl, id⟩
theorem setNextPos (k : Nat) : LeavesPort s { s with nextPos := k } :=
  ⟨LegalKept.of_eq rfl rfl, rfl, rfl, rfl, rfl, id⟩
theorem setIrq (i : Irq) : LeavesPort s { s with irq := i } := ⟨LegalKept.of_eq rfl rfl, rfl, rfl, rfl, rfl, id⟩
theorem setTable (p : TablePort) : LeavesPort s { s with table := p } :=
  ⟨LegalKept.of_eq rfl rfl, rfl, rfl, rfl, rfl, id⟩
theorem setSpareCtrl (c : SpareCtrl) : LeavesPort s { s with spareCtrl := c } :=
  ⟨LegalKept.of_eq rfl rfl, rfl, rfl, rfl, rfl, id⟩
theorem setPins (p : Pins) : LeavesPort s { s with pins := p } := ⟨LegalKept.of_eq rfl rfl, rfl, rfl, rfl, rfl, id⟩
theorem setMount (m : MountReader) : LeavesPort s { s with mount := m } :=
  ⟨LegalKept.of_eq rfl rfl, rfl, rfl, rfl, rfl, id⟩
theorem setScrub (c : Scrub) : LeavesPort s { s with scrub := c } := of_engines (.setScrub s c) (.setScrub s c)
theorem setCmd (c : CommandEngine) : LeavesPort s { s with cmd := c } := of_engines (.setCmd s c) (.setCmd s c)
theorem setFiller (f : Option Filler) : LeavesPort s { s with filler := f } :=
  of_engines (.setFiller s f) (LegalKept.of_eq rfl rfl)
theorem post (r : EventRecord) : LeavesPort s (s.post r) := of_engines (.post s r) (.post s r)
theorem complete (r : Result) : LeavesPort s (s.complete r) := of_engines (.complete s r) (.complete s r)
theorem scrubSettle : LeavesPort s s.scrubSettle := of_engines (.scrubSettle s) (.scrubSettle s)
theorem answer (v : Half) : LeavesPort s (s.answer v) := setHost s _
theorem unhold : LeavesPort s s.unhold := setHost s _
theorem emptyLatch : LeavesPort s s.emptyLatch := setHost s _
theorem hold (n : Fin 4) (high : Bool) (w : Option Half) : LeavesPort s (s.hold n high w) := setHost s _

/-! ### The channels -/

theorem checkHead (n : Fin 4) : LeavesPort s (s.checkHead n) := by
  unfold State.checkHead
  dsimp only
  split
  · split
    · split
      · exact (setChan_of s fun h => Channel.legal_fault (h n) _ _).trans (post _ _)
      · exact refl s
    · exact refl s
  · exact refl s

theorem consume (n : Fin 4) : LeavesPort s (s.consume n) := by
  unfold State.consume
  dsimp only
  refine (setChan_of s fun h => ?_).trans (checkHead _ n)
  split
  · exact Channel.legal_of_shrink (h n) (by simp) le_rfl id rfl id
  · exact Channel.legal_of_shrink (h n) (by simp) le_rfl id rfl (by simp)

theorem loadSide (side : Option Side) : LeavesPort s (s.loadSide side) := by
  unfold State.loadSide
  split
  · exact setDiag s _
  · exact refl s

theorem deliver (n : Fin 4) (high : Bool) (e : ReadEntry) : LeavesPort s (s.deliver n high e) := by
  unfold State.deliver
  dsimp only
  split
  · exact ((answer s _).trans (loadSide _ _)).trans (consume _ _)
  · exact (answer s _).trans (loadSide _ _)

theorem readDataReg (n : Fin 4) (high : Bool) : LeavesPort s (s.readDataReg n high) := by
  unfold State.readDataReg
  dsimp only
  split
  · exact answer s _
  · split
    · split
      · split
        · exact deliver s _ _ _
        · exact hold s _ _ _
      · exact answer s _
    · exact answer s _

theorem dropOthers (n : Fin 4) (a : Addr) : LeavesPort s (s.dropOthers n a) := by
  refine ⟨LegalKept.of_eq rfl rfl, rfl, rfl, rfl, rfl, fun h m => ?_⟩
  have hm := h m
  simp only [State.chan, State.dropOthers, Fin.getElem_fin, Vector.getElem_mapFinIdx] at hm ⊢
  split
  · exact hm
  · exact Channel.legal_dropWord hm a

theorem accept {n : Fin 4} (hroom : (s.chan n).writeQ.length < 4) (v : WriteValue) : LeavesPort s (s.accept n v) := by
  have hlegal (h : (s.chan n).legal) (c : Channel) (e : WriteEntry) (hw : c.writeQ = (s.chan n).writeQ ++ [e])
      (hr : c.readAhead = (s.chan n).readAhead) (hh : c.holds = (s.chan n).holds) (hm : c.mode = (s.chan n).mode)
      (hst : c.state = (s.chan n).state ∨ c.state = .ended) : c.legal := by
    have hshort : ({ c with writeQ := [] } : Channel).legal :=
      Channel.legal_of_shrink h (by simp [hr]) (by simp) (by simp [hh]) hm (by rcases hst with e | e <;> simp [e])
    obtain ⟨h1, -, h3, h4⟩ := hshort
    exact ⟨h1, by simp [hw]; omega, h3, h4⟩
  have hdrop (b : Bool) : LeavesPort s (if b then s.dropOthers n (s.chan n).pointer else s) ∧
      (if b then s.dropOthers n (s.chan n).pointer else s).chan n = s.chan n := by
    cases b
    · exact ⟨refl s, rfl⟩
    · exact ⟨dropOthers s _ _, State.dropOthers_chan_self s _ _⟩
  unfold State.accept
  dsimp only
  refine ((hdrop _).1.trans (setChan_of _ fun h => ?_)).trans (setNextPos _ _)
  have hn := (hdrop _).2 ▸ h n
  split
  · exact hlegal hn _ _ rfl rfl rfl rfl (.inl rfl)
  · exact hlegal hn _ _ rfl rfl rfl rfl (.inr rfl)

theorem ignoreWrite (n : Fin 4) : LeavesPort s (s.ignoreWrite n) :=
  setChan_of s fun h => Channel.legal_of_shrink (h n) le_rfl le_rfl id rfl id

theorem writeDataReg (n : Fin 4) (high : Bool) (v : Half) : LeavesPort s (s.writeDataReg n high v) := by
  unfold State.writeDataReg
  dsimp only
  split
  · exact ignoreWrite s _
  · split
    · exact ignoreWrite s _
    · split
      · exact ignoreWrite s _
      · exact setChan_of s fun h => Channel.legal_of_shrink (h n) le_rfl le_rfl id rfl id
      · split
        · exact accept s ‹_› _
        · exact hold s _ _ _

theorem settleHeld : LeavesPort s s.settleHeld := by
  unfold State.settleHeld
  split
  · exact refl s
  · dsimp only
    split
    · split
      · exact (unhold s).trans (answer _ _)
      · split
        · exact (unhold s).trans (deliver _ _ _ _)
        · exact refl s
    · split
      · exact (unhold s).trans (ignoreWrite _ _)
      · split
        · split
          · exact (unhold s).trans (accept _ ‹_› _)
          · exact refl s
        · exact refl s

theorem endHeld : LeavesPort s s.endHeld := by
  unfold State.endHeld
  split
  · split
    · exact (unhold s).trans (answer _ _)
    · exact unhold s
  · exact refl s

theorem expireWait : LeavesPort s s.expireWait := by
  unfold State.expireWait
  split
  · exact refl s
  · dsimp only
    split
    · exact ((unhold s).trans (answer _ _)).trans
        (setChan_of _ fun h => Channel.legal_fault (Channel.legal_discard (h _)) _ _)
    · exact (unhold s).trans (setChan_of _ fun h => Channel.legal_fault (h _) _ _)

theorem dropGrant (n : Fin 4) : LeavesPort s (s.dropGrant n) :=
  setChan_of s fun h => Channel.legal_of_shrink (h n) le_rfl le_rfl (by simp) rfl id

theorem fetchArrives (n : Fin 4) (e : ReadEntry) : LeavesPort s (s.fetchArrives n e) := by
  unfold State.fetchArrives
  dsimp only
  split
  · rename_i hwants
    simp only [Channel.wantsFetch, Bool.and_eq_true, beq_iff_eq] at hwants
    obtain ⟨⟨hholds, hreads⟩, hopened⟩ := hwants
    refine ((setChan_of s fun h => ?_).trans (checkHead _ _)).trans (settleHeld _)
    obtain ⟨-, hwrite, hplace, -⟩ := h n
    have hone := hplace hholds
    refine ⟨by simpa using hone, hwrite, by simp, ?_⟩
    change (s.chan n).state = .closed ∨ (s.chan n).state = .draining ∨ (s.chan n).reads = false → _
    simp [hopened, hreads]
  · exact dropGrant s _

theorem drained (n : Fin 4) : LeavesPort s (s.drained n) := by
  unfold State.drained
  dsimp only
  split
  · rename_i hdrain
    exact setChan_of s fun h => Channel.legal_of_shrink (h n) le_rfl le_rfl id rfl fun _ => .inr hdrain.1
  · exact refl s

theorem popEntry (n : Fin 4) : LeavesPort s (s.popEntry n) :=
  setChan_of s fun h => Channel.legal_of_shrink (h n) le_rfl (by simp) (by simp) rfl id

theorem entryLeaves (n : Fin 4) : LeavesPort s (s.entryLeaves n) := by
  unfold State.entryLeaves
  split
  · exact ((popEntry s _).trans (drained _ _)).trans (settleHeld _)
  · exact refl s

theorem mergeRefused (n : Fin 4) (a : Addr) (b : Block) (m : ReadMark) : LeavesPort s (s.mergeRefused n a b m) := by
  unfold State.mergeRefused
  dsimp only
  split
  · refine (((popEntry s n).trans ?_).trans (post _ _)).trans (settleHeld _)
    split
    · exact setChan_of _ fun h => Channel.legal_fault (h n) _ _
    · exact drained _ _
  · exact refl s

theorem requestOpen (n : Fin 4) : LeavesPort s (s.requestOpen n) := by
  unfold State.requestOpen
  split
  · exact setChan_of s fun h => Channel.legal_of_shrink (h n) le_rfl le_rfl id rfl id
  · exact setChan_of s fun _ => Channel.legal_openTaken

theorem writeCtrl (n : Fin 4) (v : Half) : LeavesPort s (s.writeCtrl n v) := by
  have hclose : LeavesPort s (s.setChan n (s.chan n).close) := setChan_of s fun h => Channel.legal_close (h n)
  unfold State.writeCtrl
  dsimp only
  split
  · exact refl s
  · split
    · rename_i hclosed
      have hload : LeavesPort s (s.setChan n ((s.chan n).loadSettings v)) :=
        setChan_of s fun h => Channel.legal_loadSettings (h n) hclosed v
      split
      · exact hload.trans (requestOpen _ n)
      · exact hload
    · split
      · exact refl s
      · exact hclose
    · split
      · exact refl s
      · exact hclose
    · split
      · split
        · exact refl s
        · exact setChan_of s fun h => Channel.legal_resumeAt (h n) _
        · exact setChan_of s fun h => Channel.legal_skip (h n)
      · exact hclose
    · split
      · exact requestOpen s n
      · exact refl s

theorem writePtrLo (n : Fin 4) (v : Half) : LeavesPort s (s.writePtrLo n v) := by
  unfold State.writePtrLo
  split
  · exact refl s
  · exact setChan_of s fun h => Channel.legal_movePointer (h n) _

theorem writePtrHi (n : Fin 4) (v : Half) : LeavesPort s (s.writePtrHi n v) :=
  setChan_of s fun h => Channel.legal_of_shrink (h n) le_rfl le_rfl id rfl id

theorem writeStatus (n : Fin 4) (v : Half) : LeavesPort s (s.writeStatus n v) :=
  setChan_of s fun h => Channel.legal_of_shrink (h n) le_rfl le_rfl id rfl id

theorem writeWinFirst (n : Fin 4) (v : Half) : LeavesPort s (s.writeWinFirst n v) := by
  unfold State.writeWinFirst
  split
  · exact setChan_of s fun h => Channel.legal_of_shrink (h n) le_rfl le_rfl id rfl id
  · exact refl s

theorem writeWinLast (n : Fin 4) (v : Half) : LeavesPort s (s.writeWinLast n v) := by
  unfold State.writeWinLast
  split
  · exact setChan_of s fun h => Channel.legal_of_shrink (h n) le_rfl le_rfl id rfl id
  · exact refl s

/-! ### The other registers -/

theorem popEvent : LeavesPort s s.popEvent :=
  ⟨⟨Events.legal_pop, id⟩, rfl, rfl, rfl, rfl, id⟩

theorem writeScrubCtrl (v : Half) : LeavesPort s (s.writeScrubCtrl v) := (setScrub s _).trans (scrubSettle _)

theorem writeIrqPending (v : Half) : LeavesPort s (s.writeIrqPending v) := by
  unfold State.writeIrqPending
  split
  · exact setIrq s _
  · exact refl s

theorem writeCommandStatus (v : Half) : LeavesPort s (s.writeCommandStatus v) := by
  unfold State.writeCommandStatus
  split
  · exact setCmd s _
  · exact refl s

theorem refuseCommand (v : Half) : LeavesPort s (s.refuseCommand v) := by
  unfold State.refuseCommand
  split <;> exact setCmd s _

theorem writeChanRegister (n : Fin 4) (r : BitVec 3) (v : Half) : LeavesPort s (s.writeChanRegister n r v) := by
  unfold State.writeChanRegister
  split
  · exact writeCtrl s n v
  · exact writeStatus s n v
  · exact writePtrLo s n v
  · exact writePtrHi s n v
  · exact writeWinFirst s n v
  · exact writeWinLast s n v
  · exact writeDataReg s n _ v
  · exact writeDataReg s n _ v

theorem readPlain (a : BitVec 6) : LeavesPort s (s.readPlain a) := by
  unfold State.readPlain
  split
  · split
    · exact readDataReg s _ _
    · exact readDataReg s _ _
    · exact answer s _
  · exact answer s _

theorem readPaired (r : PairedReg) : LeavesPort s (s.readPaired r) := by
  unfold State.readPaired
  split
  · exact refl s
  · split
    · split
      · exact (emptyLatch s).trans (answer _ _)
      · exact setHost s _
    · exact setHost s _

theorem hostWrite {f : State → State} (h : ∀ x, x.dev.state = s.dev.state → LeavesPort x (f x)) :
    LeavesPort s (s.hostWrite f) := by
  unfold State.hostWrite
  split
  · exact refl s
  · exact (emptyLatch s).trans (h _ rfl)

theorem hostRead {f : State → State} (h : ∀ x, LeavesPort x (f x)) : LeavesPort s (s.hostRead f) := by
  unfold State.hostRead
  split
  · exact refl s
  · exact (emptyLatch s).trans (h _)

theorem busRead (a : BitVec 6) : LeavesPort s (s.busRead a) := by
  unfold State.busRead
  split
  · exact readPaired s _
  · exact hostRead s fun x => readPlain x a

/-- A register write leaves the port alone, or is a write of COMMAND. -/
theorem writeRegister_or_command (a : BitVec 6) (v : Half) :
    LeavesPort s (s.writeRegister a v) ∨ s.writeRegister a v = s.writeCommand v := by
  unfold State.writeRegister
  split
  · exact .inl (writeChanRegister s _ _ _)
  · split
    · exact .inr rfl
    · exact .inl (setCmd s _)
    · exact .inl (setCmd s _)
    · exact .inl (writeCommandStatus s _)
    · exact .inl (writeIrqPending s _)
    · exact .inl (setIrq s _)
    · exact .inl (popEvent s)
    · exact .inl (writeScrubCtrl s _)
    · exact .inl (setScrub s _)
    · exact .inl (setScrub s _)
    · exact .inl (setSpareCtrl s _)
    · exact .inl (setTable s _)
    · exact .inl (setDiag s _)
    · exact .inl (refl s)

/-! ### The timer, the inner steps, free orders -/

theorem scrubTimer : LeavesPort s s.scrubTimer := by
  unfold State.scrubTimer
  split
  · exact of_engines (.timerExpires s) (.timerExpires s)
  · exact refl s

theorem completeIfDue : LeavesPort s s.completeIfDue := by
  unfold State.completeIfDue
  split
  · exact complete s _
  · exact refl s

theorem setChoices (n : Nat) : LeavesPort s { s with choices := n } := of_engines (.setChoices s n) (.setChoices s n)

/-- An event that may end a range run runs its effect on a state that differs in nothing the port sees. -/
theorem rangeEvent_from (f : State → State) : ∃ x, LeavesPort s x ∧ s.rangeEvent f = f x := by
  unfold State.rangeEvent
  split
  · dsimp only
    split
    · exact ⟨_, (setChoices s _).trans (complete _ _), rfl⟩
    · exact ⟨_, setChoices s _, rfl⟩
  · exact ⟨s, refl s, rfl⟩

theorem withSettle {f : State → State} (h : ∀ x, LeavesPort x (f x)) : LeavesPort s (s.withSettle f) := by
  obtain ⟨x, hx, heq⟩ := rangeEvent_from s fun x => (f x).scrubSettle
  rw [State.withSettle, heq]
  exact (hx.trans (h x)).trans (scrubSettle _)

theorem eitherWay {f g : State → State} (hf : ∀ x, LeavesPort x (f x)) (hg : ∀ x, LeavesPort x (g x)) :
    LeavesPort s (s.eitherWay f g) := by
  rcases s.eitherWay_cases f g with h | h <;> rw [h]
  · exact ((setChoices s _).trans (hf _)).trans (hg _)
  · exact ((setChoices s _).trans (hg _)).trans (hf _)

theorem takeReport (rep : Report) : LeavesPort s (s.takeReport rep) := of_engines (.takeReport s rep) (.takeReport s rep)

theorem withReport (rep : Option Report) {f : State → State} (hf : ∀ x, LeavesPort x (f x)) :
    LeavesPort s (s.withReport rep f) := by
  unfold State.withReport
  split
  · exact hf s
  · exact eitherWay s (fun x => takeReport x _) hf

theorem reportOnly (rep : Option Report) : LeavesPort s (s.reportOnly rep) :=
  of_engines (.reportOnly s rep) (.reportOnly s rep)

theorem ageHeld : LeavesPort s s.ageHeld := by
  unfold State.ageHeld
  split
  · exact refl s
  · split
    · exact expireWait s
    · exact setHost s _

theorem countTick : LeavesPort s s.countTick := by
  unfold State.countTick
  split
  · split
    · exact of_engines (.timerExpires s) (.timerExpires s)
    · exact setScrub s _
  · exact refl s

theorem tick : LeavesPort s s.tick := (ageHeld s).trans (countTick _)

end LeavesPort

/-! ### Commands, pins and the decision leave the array alone -/

namespace LeavesArray
variable (s : State)

theorem setDev (d : Device) : LeavesArray s { s with dev := d } := of_eq rfl rfl rfl rfl rfl
theorem setPort (p : Port) : LeavesArray s { s with port := p } := of_eq rfl rfl rfl rfl rfl
theorem noteRead (a : Addr) : LeavesArray s (s.noteRead a) := of_eq rfl rfl rfl rfl rfl

theorem enterFormatting (n : Nat) : LeavesArray s (s.enterFormatting n) :=
  ⟨⟨id, fun _ => MigEngine.legal_of_empty rfl⟩, rfl, rfl, id⟩

theorem startMount : LeavesArray s s.startMount :=
  ⟨⟨id, fun _ => MigEngine.legal_of_empty rfl⟩, rfl, rfl, id⟩

theorem resetAll : LeavesArray s s.resetAll :=
  ⟨⟨fun _ => Events.legal_empty, fun _ => MigEngine.legal_of_empty rfl⟩, rfl, rfl, fun _ n => by
    have : s.resetAll.chan n = Channel.reset := by simp [State.resetAll, State.reset, State.chan]
    rw [this]
    exact Channel.legal_reset⟩

theorem takeFormat : LeavesArray s s.takeFormat := by
  unfold State.takeFormat
  split
  · exact (LeavesPort.complete s _).leavesArray
  · split
    · exact (LeavesPort.complete s _).leavesArray
    · split
      · exact (LeavesPort.complete s _).leavesArray
      · exact (enterFormatting s _).trans (LeavesPort.setCmd _ _).leavesArray

theorem takeRemount : LeavesArray s s.takeRemount := by
  unfold State.takeRemount
  split
  · exact (LeavesPort.complete s _).leavesArray
  · split
    · exact (LeavesPort.complete s _).leavesArray
    · exact ((setDev s _).trans (startMount _)).trans (LeavesPort.setCmd _ _).leavesArray

end LeavesArray

namespace LeavesPort
variable (s : State)

theorem requestCommit : LeavesPort s s.requestCommit := of_engines (.requestCommit s) (.requestCommit s)

theorem begin (r : Running) : LeavesPort s (s.begin r) := setCmd s _

theorem takeCommit : LeavesPort s s.takeCommit := by
  unfold State.takeCommit
  split
  · exact complete s _
  · split
    · split
      · exact complete s _
      · exact ((begin s _).trans (requestCommit _)).trans (scrubSettle _)
    · exact (begin s _).trans (requestCommit _)

theorem takeSpareBlock : LeavesPort s s.takeSpareBlock := by
  unfold State.takeSpareBlock
  split
  · exact complete s _
  · split
    · exact complete s _
    · split
      · exact complete s _
      · exact eitherWay s (fun x => complete x _) fun x =>
          (of_engines (.requestMigration x _ _) (.requestMigration x _ _)).trans (scrubSettle _)

theorem takeCancelSpare : LeavesPort s s.takeCancelSpare := by
  unfold State.takeCancelSpare
  split
  · exact complete s _
  · split
    · exact complete s _
    · exact eitherWay s (fun x => complete x _) fun x =>
        (of_engines (.cancelMigration x _) (.cancelMigration x _)).trans (scrubSettle _)

theorem takeScrubRange : LeavesPort s s.takeScrubRange := by
  unfold State.takeScrubRange
  split
  · exact complete s _
  · split
    · exact complete s _
    · exact ((begin s _).trans (setScrub _ _)).trans (scrubSettle _)

theorem takeClearFaults : LeavesPort s s.takeClearFaults := by
  unfold State.takeClearFaults
  split
  · exact complete s _
  · exact (of_engines (.setFaults s _) (.setFaults s _)).trans (complete _ _)

end LeavesPort

namespace LeavesArray
variable (s : State)

theorem softResetBlocks : LeavesArray s s.softResetBlocks := by
  have hmig := OnlyEngines.softResetMigration s
  refine ⟨⟨fun _ => Events.legal_empty, (LegalKept.softResetMigration s).mig⟩, hmig.array, hmig.pending, fun _ n => ?_⟩
  have : s.softResetBlocks.chan n = Channel.reset := by simp [State.softResetBlocks, State.chan]
  rw [this]
  exact Channel.legal_reset

theorem softReset : LeavesArray s s.softReset := by
  unfold State.softReset
  dsimp only
  split
  · exact ((softResetBlocks s).trans (LeavesPort.complete _ _).leavesArray).trans (startMount _)
  · exact (softResetBlocks s).trans (LeavesPort.complete _ _).leavesArray

theorem runCommand (c : Option Command) : LeavesArray s (s.runCommand c) := by
  unfold State.runCommand
  split
  · exact takeFormat s
  · exact takeRemount s
  · exact (LeavesPort.takeCommit s).leavesArray
  · exact (LeavesPort.takeSpareBlock s).leavesArray
  · exact (LeavesPort.takeCancelSpare s).leavesArray
  · exact (LeavesPort.takeScrubRange s).leavesArray
  · exact (LeavesPort.takeClearFaults s).leavesArray
  · exact softReset s
  · exact (LeavesPort.complete s _).leavesArray

theorem writeCommand (v : Half) : LeavesArray s (s.writeCommand v) := by
  unfold State.writeCommand
  split
  · exact (LeavesPort.refuseCommand s _).leavesArray
  · exact (LeavesPort.setCmd s _).leavesArray.trans (runCommand _ _)

theorem busWrite (a : BitVec 6) (v : Half) : LeavesArray s (s.busWrite a v) := by
  have hwrite (x : State) : LeavesArray x (x.writeRegister a v) := by
    rcases LeavesPort.writeRegister_or_command x a v with h | h
    · exact h.leavesArray
    · exact h ▸ writeCommand x v
  rcases s.hostWrite_cases fun x => x.writeRegister a v with h | h <;> rw [State.busWrite, h]
  · exact (LeavesPort.emptyLatch s).leavesArray.trans (hwrite _)
  · exact refl s

/-! ### Pins and the fence -/

theorem fence : LeavesArray s s.fence := by
  refine (LeavesArray.of_eq ?_ ?_ ?_ ?_ ?_).trans (LeavesPort.settleHeld _).leavesArray <;> rfl

theorem leaveReset : LeavesArray s s.leaveReset :=
  LeavesArray.trans (t := { s with pCode := s.pins.asz, dev := { s.dev with inReset := false } })
    (of_eq rfl rfl rfl rfl rfl) (startMount _)

theorem resetBy : LeavesArray s s.resetBy := by
  unfold State.resetBy
  split
  · exact (resetAll s).trans (leaveReset _)
  · exact (resetAll s).trans (of_eq rfl rfl rfl rfl rfl)

theorem fenceIfDue : LeavesArray s s.fenceIfDue := by
  unfold State.fenceIfDue
  split
  · unfold State.enterFenced
    split
    · exact (fence s).trans (resetBy _)
    · exact fence s
  · exact refl s

theorem nresetRelease (asz : BitVec 2) : LeavesArray s (s.nresetRelease asz) := by
  have hpins : LeavesArray s ((s.setNReset true).setAsz asz) :=
    ((LeavesPort.setPins s _).trans (LeavesPort.setPins _ _)).leavesArray
  unfold State.nresetRelease
  dsimp only
  split
  · exact hpins.trans (leaveReset _)
  · exact hpins

theorem npfailAssert : LeavesArray s s.npfailAssert := by
  have hpins : LeavesArray s (s.setNPfail false) := (LeavesPort.setPins s _).leavesArray
  unfold State.npfailAssert
  dsimp only
  split
  · exact hpins
  · exact (hpins.trans (setPort _ _)).trans (fenceIfDue _)

theorem npfailRelease (asz : BitVec 2) : LeavesArray s (s.npfailRelease asz) := by
  have hpins : LeavesArray s ((s.setNPfail true).setAsz asz) :=
    ((LeavesPort.setPins s _).trans (LeavesPort.setPins _ _)).leavesArray
  unfold State.npfailRelease
  dsimp only
  split
  · exact (hpins.trans (setPort _ _)).trans (resetBy _)
  · exact hpins

end LeavesArray

/-! ### The decision -/

/-- R62, R73: a channel that presents a request has at most one word fetched, so a granted fetch has its place. -/
theorem State.readAhead_of_chanRequests {s : State} {n : Fin 4} (h : (s.chan n).legal)
    (hreq : s.chanRequests n = true) : (s.chan n).readAhead.length ≤ 1 := by
  by_cases hreads : (s.chan n).reads = true
  · have hfetch : (s.fetchOffer n).isSome = true := by
      simpa [State.chanRequests, State.writeOffer, hreads] using hreq
    unfold State.fetchOffer at hfetch
    dsimp only at hfetch
    split at hfetch
    · rename_i hroom
      simp only [Bool.and_eq_true, decide_eq_true_eq] at hroom
      omega
    · simp at hfetch
  · have hempty := h.2.2.2 (.inr (.inr (by simpa using hreads)))
    simp [hempty]

namespace LeavesArray
variable (s : State)

theorem markHeld (k : GrantClass) : LeavesArray s (s.markHeld k) := by
  unfold State.markHeld
  split
  · exact (LeavesPort.setMount s _).leavesArray
  · exact (LeavesPort.setScrub s _).leavesArray
  · exact (LeavesPort.setScrub s _).leavesArray
  · split
    · rename_i n hn
      have hreq : s.chanRequests n = true := List.find?_some (p := fun n => s.chanRequests n) hn
      refine (LeavesPort.setChan_of s fun h => ?_).leavesArray
      obtain ⟨hread, hwrite, -, hempty⟩ := h n
      exact ⟨hread, hwrite, fun _ => State.readAhead_of_chanRequests (h n) hreq, hempty⟩
    · exact refl s
  · exact refl s
  · exact refl s

theorem decide : LeavesArray s s.decide := by
  unfold State.decide
  split
  · split
    · split
      · exact (markHeld s _).trans (setPort _ _)
      · exact refl s
    · exact refl s
  · exact refl s

end LeavesArray

/-! ### Completions at the requesters -/

/-- R88: the grants that only read the array. -/
def Grant.onlyReads : Grant → Bool
  | .wordRead _ _ _ => true
  | .rawRead _ _ => true
  | .verify _ _ => true
  | .mountRead _ => true
  | .dirRead _ => true
  | .fillerRead _ => true
  | _ => false

namespace LeavesArray
variable (s : State)

theorem loadCopy (c : Copy) : LeavesArray s (s.loadCopy c) := of_eq rfl rfl rfl rfl rfl

theorem leaveMounting (o : MountOutcome) : LeavesArray s (s.leaveMounting o) := by
  have hdev : LeavesArray s (({ s with dev := { s.dev with state := stateOfOutcome o } } : State).clearTicks) :=
    of_eq rfl rfl rfl rfl rfl
  unfold State.leaveMounting
  dsimp only
  split
  · exact hdev.trans (LeavesPort.complete _ _).leavesArray
  · exact hdev

theorem mountComplete : LeavesArray s s.mountComplete := by
  unfold State.mountComplete
  dsimp only
  have hload (p : Prop) [Decidable p] (c : Option Copy) :
      LeavesArray s (if p then (match c with | some c => s.loadCopy c | none => s) else s) := by
    split
    · split
      · exact loadCopy s _
      · exact refl s
    · exact refl s
  have hpost (x : State) (d : Device) (m : MountReader) (r : EventRecord) (o : MountOutcome) :
      LeavesArray x ((({ x with dev := d, mount := m } : State).post r).leaveMounting o) :=
    LeavesArray.trans (t := { x with dev := d, mount := m }) (of_eq rfl rfl rfl rfl rfl)
      ((LeavesPort.post _ _).leavesArray.trans (leaveMounting _ _))
  split
  · exact ((hload _ _).trans (hpost _ _ _ _ _)).trans (LeavesPort.requestCommit _).leavesArray
  · exact (hload _ _).trans (hpost _ _ _ _ _)

theorem mountResult (r : DecodeResult) : LeavesArray s (s.mountResult r) := by
  unfold State.mountResult
  dsimp only
  split
  · exact (LeavesPort.setMount s _).leavesArray.trans (mountComplete _)
  · exact (LeavesPort.setMount s _).leavesArray

theorem endFormat (f : Filler) : LeavesArray s (s.endFormat f) := by
  unfold State.endFormat
  dsimp only
  split
  · refine (LeavesArray.of_eq ?_ ?_ ?_ ?_ ?_).trans (LeavesPort.complete _ _).leavesArray <;> rfl
  · exact of_eq rfl rfl rfl rfl rfl

theorem nextCopyStage (f : Filler) : LeavesArray s (s.nextCopyStage f) := by
  unfold State.nextCopyStage
  split
  · exact (LeavesPort.setFiller s _).leavesArray
  · exact endFormat s _

theorem fillAdvance : LeavesArray s s.fillAdvance := by
  unfold State.fillAdvance
  split
  · split <;> exact (LeavesPort.setFiller s _).leavesArray
  · exact refl s

theorem fillerWritten : LeavesArray s s.fillerWritten := by
  unfold State.fillerWritten
  split
  · split
    · split <;> exact (LeavesPort.setFiller s _).leavesArray
    · exact refl s
    · split
      · split <;> exact (LeavesPort.setFiller s _).leavesArray
      · exact nextCopyStage s _
      · exact refl s
  · exact refl s

theorem fillerReadBack (r : DecodeResult) : LeavesArray s (s.fillerReadBack r) := by
  unfold State.fillerReadBack
  split
  · split
    · split <;> exact (LeavesPort.setFiller s _).leavesArray
    · split
      · exact (LeavesPort.setFiller s _).leavesArray
      · exact nextCopyStage s _
  · exact refl s

theorem mountReadDone (a : Addr) : LeavesArray s (s.mountReadDone a) := by
  have hreport (x : State) (rep : Option Report) {f : State → State} (hf : ∀ y, LeavesArray y (f y)) :
      LeavesArray x (x.withReport rep f) := by
    unfold State.withReport
    split
    · exact hf x
    · have hcount := (LeavesPort.setChoices x (x.choices + 1)).leavesArray
      rcases x.eitherWay_cases (fun y => y.takeReport _) f with h | h <;> rw [h]
      · exact (hcount.trans (LeavesPort.takeReport _ _).leavesArray).trans (hf _)
      · exact (hcount.trans (hf _)).trans (LeavesPort.takeReport _ _).leavesArray
  unfold State.mountReadDone
  dsimp only
  split
  · exact (noteRead s _).trans (hreport _ _ fun x => mountResult x _)
  · exact (noteRead s _).trans (LeavesPort.reportOnly _ _).leavesArray

theorem completion {g : Grant} (h : g.onlyReads = true) : LeavesArray s (s.completion g) := by
  cases g with
  | wordRead n l p =>
    exact (noteRead s _).trans (LeavesPort.withReport _ _ fun x => LeavesPort.fetchArrives x _ _).leavesArray
  | rawRead n a => exact (noteRead s _).trans (LeavesPort.fetchArrives _ _ _).leavesArray
  | verify a k =>
    exact (noteRead s _).trans
      (LeavesPort.of_engines (.verifyResult _ _ _) (LegalKept.verifyResult _ _)).leavesArray
  | mountRead a => exact mountReadDone s a
  | dirRead a =>
    exact (noteRead s _).trans (LeavesPort.of_engines (.dirReadBack _ _) (.dirReadBack _ _)).leavesArray
  | fillerRead a => exact (noteRead s _).trans (fillerReadBack _ _)
  | _ => simp [Grant.onlyReads] at h

end LeavesArray

namespace KeepsLegal
variable (s : State)

theorem writeCell (a : Addr) (c : Codeword) : KeepsLegal s (s.writeCell a c) :=
  ⟨LegalKept.of_eq rfl rfl, fun h => State.writeCell_wf h a c, rfl, id⟩

theorem writeMirror (m : Option Mirror) (c : Codeword) : KeepsLegal s (s.writeMirror m c) := by
  unfold State.writeMirror
  split
  · exact writeCell s _ _
  · exact refl s

theorem decay (a : Addr) (bit : BitVec 6) : KeepsLegal s (s.decay a bit) := by
  unfold State.decay
  split
  · exact ⟨LegalKept.of_eq rfl rfl, fun h => CellArray.wf_put h _ _, rfl, id⟩
  · exact refl s

theorem mirrorMark (m : Option Mirror) : KeepsLegal s (s.mirrorMark m) :=
  (LeavesPort.of_engines (.mirrorMark s m) (LegalKept.mirrorMark m)).keepsLegal

theorem writeBoth (a : Addr) (m : Option Mirror) (c : Codeword) :
    KeepsLegal s (((s.writeCell a c).writeMirror m c).mirrorMark m) :=
  ((writeCell s _ _).trans (writeMirror _ _ _)).trans (mirrorMark _ _)

theorem mergeDone (n : Fin 4) (l p : Addr) (mi : Option Mirror) (high : Bool) (v : Half) :
    KeepsLegal s (s.mergeDone n l p mi high v) := by
  unfold State.mergeDone
  dsimp only
  refine (LeavesArray.noteRead s p).keepsLegal.trans ?_
  split
  · exact (LeavesPort.withReport _ _ fun x => LeavesPort.mergeRefused x _ _ _ _).keepsLegal
  · exact (writeBoth _ _ _ _).trans (LeavesPort.withReport _ _ fun x => LeavesPort.entryLeaves x _).keepsLegal

theorem scrubDone (a : Addr) (p r : Bool) : KeepsLegal s (s.scrubDone a p r) := by
  have hwrite (x : State) (w : Option Codeword) :
      KeepsLegal x (match w with | some c => x.writeCell a c | none => x) := by
    split
    · exact writeCell x _ _
    · exact refl x
  unfold State.scrubDone
  dsimp only
  split
  · exact (((LeavesArray.noteRead s a).keepsLegal.trans (hwrite _ _)).trans
      (LeavesPort.setScrub _ _).keepsLegal).trans
      (LeavesPort.of_engines (.scrubResult _ _ _ _ _) (.scrubResult _ _ _ _ _)).keepsLegal
  · exact ((LeavesArray.noteRead s a).keepsLegal.trans (hwrite _ _)).trans (LeavesPort.reportOnly _ _).keepsLegal

theorem completion (g : Grant) : KeepsLegal s (s.completion g) := by
  cases g with
  | wordWrite n p mi c => exact (writeBoth s p mi c).trans (LeavesPort.entryLeaves _ n).keepsLegal
  | merge n l p mi h v => exact mergeDone s n l p mi h v
  | rawWrite n a c => exact (writeCell s a c).trans (LeavesPort.entryLeaves _ n).keepsLegal
  | copy src dst k =>
    exact ((LeavesArray.noteRead s src).keepsLegal.trans (writeCell _ _ _)).trans
      (LeavesPort.withReport _ _ fun x =>
        LeavesPort.of_engines (.copyResult x _ _ _) (LegalKept.copyResult _ _ _)).keepsLegal
  | scrub a p r => exact scrubDone s a p r
  | dirWrite a c =>
    exact (writeCell s a c).trans (LeavesPort.of_engines (.dirWritten _) (.dirWritten _)).keepsLegal
  | dirClose a c =>
    exact (writeCell s a c).trans (LeavesPort.of_engines (.commitSuccess _) (.commitSuccess _)).keepsLegal
  | fill a => exact (writeCell s a _).trans (LeavesArray.fillAdvance _).keepsLegal
  | fillerWrite a c => exact (writeCell s a c).trans (LeavesArray.fillerWritten _).keepsLegal
  | _ => exact (LeavesArray.completion s rfl).keepsLegal

end KeepsLegal

end Sys2Proof.Machine

namespace Sys2Proof.Machine

/-! ### The end of a grant -/

/-- The grades compose with the end of a grant: what `f` does, then what the scrub engine passes over, then the fence. -/
theorem LeavesArray.finish (s : State) {f : State → State} (h : ∀ x, LeavesArray x (f x)) :
    LeavesArray s (s.finish f) := by
  obtain ⟨x, hx, heq⟩ := LeavesPort.rangeEvent_from s.clearGrant fun x => (f x).scrubSettle
  rw [State.finish, heq]
  exact (((LeavesArray.setPort s _).trans hx.leavesArray).trans
    ((h x).trans (LeavesPort.scrubSettle _).leavesArray)).trans (LeavesArray.fenceIfDue _)

theorem KeepsLegal.finish (s : State) {f : State → State} (h : ∀ x, KeepsLegal x (f x)) :
    KeepsLegal s (s.finish f) := by
  obtain ⟨x, hx, heq⟩ := LeavesPort.rangeEvent_from s.clearGrant fun x => (f x).scrubSettle
  rw [State.finish, heq]
  exact (((LeavesArray.setPort s _).keepsLegal.trans hx.keepsLegal).trans
    ((h x).trans (LeavesPort.scrubSettle _).keepsLegal)).trans (LeavesArray.fenceIfDue _).keepsLegal

theorem KeepsLegal.completeGrant (s : State) : KeepsLegal s s.completeGrant := by
  unfold State.completeGrant
  split
  · exact KeepsLegal.finish s fun x => KeepsLegal.completion x _
  · exact KeepsLegal.refl s

theorem KeepsLegal.completeKind (s : State) (k : Grant → Bool) : KeepsLegal s (s.completeKind k) := by
  unfold State.completeKind
  split
  · split
    · exact KeepsLegal.completeGrant s
    · exact KeepsLegal.refl s
  · exact KeepsLegal.refl s

/-- A completion row that names read grants alone leaves the array as it is. -/
theorem LeavesArray.completeKind (s : State) {k : Grant → Bool} (hk : ∀ g, k g = true → g.onlyReads = true) :
    LeavesArray s (s.completeKind k) := by
  unfold State.completeKind
  split
  · rename_i g hg
    split
    · rw [State.completeGrant, hg]
      exact LeavesArray.finish s fun x => LeavesArray.completion x (hk g ‹_›)
    · exact LeavesArray.refl s
  · exact LeavesArray.refl s

theorem KeepsLegal.lastGrant (s : State) : KeepsLegal s s.lastGrant := by
  unfold State.lastGrant
  split
  · exact KeepsLegal.completeGrant s
  · exact (LeavesArray.setPort s _).keepsLegal

theorem LeavesArray.lastGrant {s : State} (h : s.port.grant = none) : LeavesArray s s.lastGrant := by
  rw [State.lastGrant_none h]
  exact LeavesArray.setPort s _

/-! ### Resets that may complete a grant -/

/-- Power-on after the grant in progress is over. -/
theorem LeavesArray.powerOn_rest (s : State) (asz : BitVec 2) (nReset nPfail : Bool) :
    LeavesArray s.lastGrant (s.powerOn asz nReset nPfail) := by
  have hpins : LeavesArray s.lastGrant
      ({ s.lastGrant.resetAll with
        pins := { nReset := nReset, nPfail := nPfail, asz := asz }, pCode := asz, host := HostPort.reset } : State) :=
    (LeavesArray.resetAll _).trans (LeavesArray.of_eq rfl rfl rfl rfl rfl)
  unfold State.powerOn
  dsimp only
  split
  · exact hpins.trans (LeavesArray.fence _)
  · split
    · exact hpins.trans (LeavesArray.leaveReset _)
    · exact hpins

/-- nRESET in FENCED changes the pin level alone; else the grant in progress is over, and the reset follows. -/
theorem State.nresetAssert_cases (s : State) : (s.dev.state = .fenced ∧ s.nresetAssert = s.setNReset false) ∨
    LeavesArray (s.setNReset false).endHeld.lastGrant s.nresetAssert := by
  unfold State.nresetAssert
  dsimp only
  split
  · exact .inl ⟨‹_›, rfl⟩
  · split
    · exact .inr (LeavesArray.refl _)
    · exact .inr (LeavesArray.resetAll _)

theorem LeavesPort.setNReset_endHeld (s : State) : LeavesPort s (s.setNReset false).endHeld :=
  (LeavesPort.setPins s _).trans (LeavesPort.endHeld _)

/-! ### What each command may touch -/

/-- How far a command reaches: a bus cycle that does not write COMMAND, a timer event or an inner step stays beside the
port; a register write may be a COMMAND write; a pin edge, a decision or a read's completion may move the port; the rest
may write the array. -/
inductive Reach where
  | beside | registerWrite | port | array
  deriving DecidableEq

/-- The reach of each command. -/
def reachOf : Instr → Reach
  | .channelSettingsLoad _ _ | .channelOpen _ _ | .channelClose _ _ | .resumeRetry _ _ | .resumeSkip _ _
  | .pointerWrite _ _ | .dataLoRead _ | .dataHiRead _ | .dataLoWrite _ _ | .dataHiWrite _ _ | .statusWrite _ _
  | .heldCycleEnd | .waitLimitExpiry | .drainComplete _ | .commandCompletion | .commandStatusWrite _
  | .irqPendingWrite _ | .irqEnableWrite _ | .eventPop _ | .tableSelectWrite _ | .pairedRead _ | .scrubCtrlWrite _
  | .scrubPeriodWrite _ | .scrubStatusWrite _ | .scrubTimerExpiry | .commitStart | .migrationStart
  | .migrationComplete | .registerRead _ => .beside
  | .format | .remount | .commit | .spareBlock | .cancelSpare | .scrubRange | .clearFaults | .softReset
  | .undefinedCommand _ | .registerWrite _ _ => .registerWrite
  | .nresetRelease _ | .npfailAssert | .enterFenced | .npfailRelease _ | .grantDecision | .fetchComplete
  | .verifyReadDone | .mountReadDone | .commitReadbackDone => .port
  | .powerOn _ _ _ | .nresetAssert | .wordWriteDone | .rawWriteDone | .mergeDone | .copyDone | .scrubWordDone
  | .commitWriteDone | .closingWriteDone | .fillDone | .formatCopyGrantDone | .cellDecay _ _ => .array

theorem exec_leavesPort {c : Instr} (h : reachOf c = .beside) (s : State) : ∃ t, exec c s = .next t ∧ LeavesPort s t := by
  have hif (p : Bool) {t : State} (ht : LeavesPort s t) : LeavesPort s (if p then t else s) := by
    split
    · exact ht
    · exact LeavesPort.refl s
  cases c with
  | channelSettingsLoad n v => exact ⟨_, rfl, LeavesPort.hostWrite s fun x _ => LeavesPort.writeCtrl x n v⟩
  | channelOpen n v => exact ⟨_, rfl, LeavesPort.hostWrite s fun x _ => LeavesPort.writeCtrl x n v⟩
  | channelClose n v => exact ⟨_, rfl, LeavesPort.hostWrite s fun x _ => LeavesPort.writeCtrl x n v⟩
  | resumeRetry n v => exact ⟨_, rfl, LeavesPort.hostWrite s fun x _ => LeavesPort.writeCtrl x n v⟩
  | resumeSkip n v => exact ⟨_, rfl, LeavesPort.hostWrite s fun x _ => LeavesPort.writeCtrl x n v⟩
  | pointerWrite n v => exact ⟨_, rfl, LeavesPort.hostWrite s fun x _ => LeavesPort.writePtrLo x n v⟩
  | dataLoRead n => exact ⟨_, rfl, LeavesPort.hostRead s fun x => LeavesPort.readDataReg x n false⟩
  | dataHiRead n => exact ⟨_, rfl, LeavesPort.hostRead s fun x => LeavesPort.readDataReg x n true⟩
  | dataLoWrite n v => exact ⟨_, rfl, LeavesPort.hostWrite s fun x _ => LeavesPort.writeDataReg x n false v⟩
  | dataHiWrite n v => exact ⟨_, rfl, LeavesPort.hostWrite s fun x _ => LeavesPort.writeDataReg x n true v⟩
  | statusWrite n v => exact ⟨_, rfl, LeavesPort.hostWrite s fun x _ => LeavesPort.writeStatus x n v⟩
  | heldCycleEnd => exact ⟨_, rfl, LeavesPort.settleHeld s⟩
  | waitLimitExpiry => exact ⟨_, rfl, LeavesPort.expireWait s⟩
  | drainComplete n => exact ⟨_, rfl, LeavesPort.drained s n⟩
  | commandCompletion => exact ⟨_, rfl, LeavesPort.completeIfDue s⟩
  | commandStatusWrite v => exact ⟨_, rfl, LeavesPort.hostWrite s fun x _ => LeavesPort.writeCommandStatus x v⟩
  | irqPendingWrite v => exact ⟨_, rfl, LeavesPort.hostWrite s fun x _ => LeavesPort.writeIrqPending x v⟩
  | irqEnableWrite v => exact ⟨_, rfl, LeavesPort.hostWrite s fun x _ => LeavesPort.setIrq x _⟩
  | eventPop v => exact ⟨_, rfl, LeavesPort.hostWrite s fun x _ => LeavesPort.popEvent x⟩
  | tableSelectWrite v => exact ⟨_, rfl, LeavesPort.hostWrite s fun x _ => LeavesPort.setTable x _⟩
  | pairedRead r => exact ⟨_, rfl, LeavesPort.readPaired s r⟩
  | scrubCtrlWrite v => exact ⟨_, rfl, LeavesPort.hostWrite s fun x _ => LeavesPort.writeScrubCtrl x v⟩
  | scrubPeriodWrite v => exact ⟨_, rfl, LeavesPort.hostWrite s fun x _ => LeavesPort.setScrub x _⟩
  | scrubStatusWrite v => exact ⟨_, rfl, LeavesPort.hostWrite s fun x _ => LeavesPort.setScrub x _⟩
  | scrubTimerExpiry => exact ⟨_, rfl, LeavesPort.scrubTimer s⟩
  | commitStart =>
    exact ⟨_, rfl, hif _ (LeavesPort.withSettle s fun x => LeavesPort.of_engines (.nextCommit x) (.nextCommit x))⟩
  | migrationStart =>
    exact ⟨_, rfl, hif _ (LeavesPort.withSettle s fun x => LeavesPort.of_engines (.tryStart x) (.tryStart x))⟩
  | migrationComplete =>
    exact ⟨_, rfl, hif _ (LeavesPort.withSettle s fun x =>
      LeavesPort.of_engines (.completeIncluded x) (.completeIncluded x))⟩
  | registerRead a => exact ⟨_, rfl, LeavesPort.busRead s a⟩
  | _ => cases h

/-- A COMMAND row is a write cycle at the COMMAND register (log 19). -/
theorem exec_registerWrite {c : Instr} (h : reachOf c = .registerWrite) (s : State) :
    ∃ a v, exec c s = .next (s.busWrite a v) := by
  cases c with
  | registerWrite a v => exact ⟨a, v, rfl⟩
  | undefinedCommand v => exact ⟨0x02, v, rfl⟩
  | format | remount | commit | spareBlock | cancelSpare | scrubRange | clearFaults | softReset =>
    exact ⟨0x02, _, rfl⟩
  | _ => cases h

theorem exec_leavesArray {c : Instr} (h : reachOf c ≠ .array) (s : State) :
    ∃ t, exec c s = .next t ∧ LeavesArray s t := by
  match hreach : reachOf c with
  | .beside =>
    obtain ⟨t, hexec, ht⟩ := exec_leavesPort hreach s
    exact ⟨t, hexec, ht.leavesArray⟩
  | .registerWrite =>
    obtain ⟨a, v, hexec⟩ := exec_registerWrite hreach s
    exact ⟨_, hexec, LeavesArray.busWrite s a v⟩
  | .array => exact absurd hreach h
  | .port =>
    cases c with
    | nresetRelease asz => exact ⟨_, rfl, LeavesArray.nresetRelease s asz⟩
    | npfailAssert => exact ⟨_, rfl, LeavesArray.npfailAssert s⟩
    | enterFenced => exact ⟨_, rfl, LeavesArray.fenceIfDue s⟩
    | npfailRelease asz => exact ⟨_, rfl, LeavesArray.npfailRelease s asz⟩
    | grantDecision => exact ⟨_, rfl, LeavesArray.decide s⟩
    | fetchComplete | verifyReadDone | mountReadDone | commitReadbackDone =>
      exact ⟨_, rfl, LeavesArray.completeKind s fun g hg => by cases g <;> simp_all [Grant.isFetch, Grant.onlyReads]⟩
    | _ => cases hreach

/-- Every command takes a next state, and what it leaves meets every invariant that held. -/
theorem exec_keepsLegal (c : Instr) (s : State) : ∃ t, exec c s = .next t ∧ KeepsLegal s t := by
  by_cases hreach : reachOf c = .array
  · cases c with
    | powerOn asz nReset nPfail =>
      exact ⟨_, rfl, (KeepsLegal.lastGrant s).trans (LeavesArray.powerOn_rest s _ _ _).keepsLegal⟩
    | nresetAssert =>
      refine ⟨_, rfl, ?_⟩
      rcases s.nresetAssert_cases with ⟨-, h⟩ | h
      · exact h ▸ (LeavesPort.setPins s _).keepsLegal
      · exact ((LeavesPort.setNReset_endHeld s).keepsLegal.trans (KeepsLegal.lastGrant _)).trans h.keepsLegal
    | cellDecay a b => exact ⟨_, rfl, KeepsLegal.decay s a b⟩
    | wordWriteDone | rawWriteDone | mergeDone | copyDone | scrubWordDone | commitWriteDone | closingWriteDone
    | fillDone | formatCopyGrantDone => exact ⟨_, rfl, KeepsLegal.completeKind s _⟩
    | _ => cases hreach
  · obtain ⟨t, hexec, ht⟩ := exec_leavesArray hreach s
    exact ⟨t, hexec, ht.keepsLegal⟩

theorem KeepsLegal.of_exec {c : Instr} {s t : State} (h : exec c s = .next t) : KeepsLegal s t := by
  obtain ⟨u, hexec, hu⟩ := exec_keepsLegal c s
  obtain rfl : u = t := by rw [h] at hexec; exact (Host.Outcome.next.inj hexec).symm
  exact hu

/-- What a step runs is one command on the state with the queue's rest, or a tick. -/
theorem step_legal {s t : State} (h : step s = .next t) :
    LegalKept s t ∧ (s.array.wf = true → t.array.wf = true) ∧ (s.chansLegal → t.chansLegal) := by
  unfold step at h
  split at h
  · obtain rfl := Host.Outcome.next.inj h
    have hkept := (LeavesPort.tick s).keepsLegal
    exact ⟨hkept.toLegalKept, hkept.array, hkept.chans⟩
  · have hkept := KeepsLegal.of_exec h
    exact ⟨⟨hkept.events, hkept.mig⟩, hkept.array, hkept.chans⟩

/-- Settles O11: every event offers records to the queue or pops it, and both keep the bound. -/
theorem eventQueueStaysLegal : Obligations.EventQueueStaysLegal :=
  fun _ _ hlegal hstep => (step_legal hstep).1.events hlegal

/-- Settles O12: the array is written through `CellArray.put` alone, which keeps the canonical form. -/
theorem arrayStaysCanonical : Obligations.ArrayStaysCanonical :=
  fun _ _ hwf hstep => (step_legal hstep).2.1 hwf

/-- Settles O13: a fetch has its place from its grant on, a write is accepted with room, and everything else shrinks the
queues. -/
theorem channelQueuesStayBounded : Obligations.ChannelQueuesStayBounded :=
  fun _ _ hlegal hstep => (step_legal hstep).2.2 hlegal

/-- Settles O14: a request is accepted only as a new block below 8 entries, and a start takes its block out of the
queue. -/
theorem migrationQueueStaysDistinct : Obligations.MigrationQueueStaysDistinct :=
  fun _ _ hlegal hstep => (step_legal hstep).1.mig hlegal

/-- Settles O3. -/
theorem execKeepsQueue : Obligations.ExecKeepsQueue := by
  intro c s
  obtain ⟨t, hexec, ht⟩ := exec_keepsLegal c s
  exact ⟨t, hexec, ht.pending⟩

/-! ### Where the array may change -/

/-- A command that reaches the array is a decaying cell, or acts on the array through a grant in progress alone. -/
theorem exec_array_of_no_grant {c : Instr} {s : State} (hdecay : ∀ a b, c ≠ .cellDecay a b)
    (hgrant : s.port.grant = none) : ∃ t, exec c s = .next t ∧ LeavesArray s t := by
  by_cases hreach : reachOf c = .array
  · cases c with
    | powerOn asz nReset nPfail =>
      exact ⟨_, rfl, (LeavesArray.lastGrant hgrant).trans (LeavesArray.powerOn_rest s _ _ _)⟩
    | nresetAssert =>
      refine ⟨_, rfl, ?_⟩
      have hpin := LeavesPort.setNReset_endHeld s
      rcases s.nresetAssert_cases with ⟨-, h⟩ | h
      · exact h ▸ (LeavesPort.setPins s _).leavesArray
      · exact (hpin.leavesArray.trans (LeavesArray.lastGrant (hpin.port ▸ hgrant))).trans h
    | cellDecay a b => exact absurd rfl (hdecay a b)
    | wordWriteDone | rawWriteDone | mergeDone | copyDone | scrubWordDone | commitWriteDone | closingWriteDone
    | fillDone | formatCopyGrantDone =>
      exact ⟨_, congrArg Host.Outcome.next (State.completeKind_none hgrant _), LeavesArray.refl s⟩
    | _ => cases hreach
  · exact exec_leavesArray hreach s

/-- Settles O16: outside the reach of a grant in progress and of a decaying cell, every command leaves the array. -/
theorem onlyGrantsWriteTheArray : Obligations.OnlyGrantsWriteTheArray := by
  intro c s t hexec hchanged
  have changed {u : State} (hu : exec c s = .next u ∧ LeavesArray s u) : False := by
    obtain rfl : u = t := Host.Outcome.next.inj (hu.1.symm.trans hexec)
    exact hchanged hu.2.array
  by_cases hdecay : ∃ a b, c = .cellDecay a b
  · exact .inl hdecay
  · right
    push Not at hdecay
    have hreach : reachOf c = .array := by
      by_contra hreach
      exact (exec_leavesArray hreach s).elim fun _ hu => changed hu
    refine ⟨?_, ?_⟩
    · by_contra hgrant
      exact (exec_array_of_no_grant hdecay (by simpa using hgrant)).elim fun _ hu => changed hu
    · cases c with
      | cellDecay a b => exact absurd rfl (hdecay a b)
      | powerOn asz nReset nPfail => exact .inr (.inl ⟨_, _, _, rfl⟩)
      | nresetAssert => exact .inl rfl
      | wordWriteDone | rawWriteDone | mergeDone | copyDone | scrubWordDone | commitWriteDone | closingWriteDone
      | fillDone | formatCopyGrantDone => exact .inr (.inr (by simp))
      | _ => cases hreach

/-! ### While FENCED -/

theorem State.mayDecide_of_fenced {s : State} (h : s.dev.state = .fenced) : s.mayDecide = false := by
  simp [State.mayDecide, h]

/-- R175: every COMMAND write is refused while FENCED, so a register write stays beside the port. -/
theorem LeavesPort.busWrite_of_fenced {s : State} (h : s.dev.state = .fenced) (a : BitVec 6) (v : Half) :
    LeavesPort s (s.busWrite a v) := by
  refine LeavesPort.hostWrite s fun x hx => ?_
  rcases LeavesPort.writeRegister_or_command x a v with hbeside | hcommand
  · exact hbeside
  · have hrefused : x.commandRefused (commandOf v) = true := by simp [State.commandRefused, hx, h]
    rw [hcommand, State.writeCommand, if_pos hrefused]
    exact LeavesPort.refuseCommand x v

/-- R101, R172: while FENCED with no grant in progress every command but power-on, the release of nPFAIL and a decaying
cell stays beside the port: pin edges move the pins alone, no decision is made, no completion is due. -/
theorem exec_of_fenced {c : Instr} {s : State} (hstate : s.dev.state = .fenced) (hgrant : s.port.grant = none)
    (hpower : ∀ asz nr np, c ≠ .powerOn asz nr np) (hrelease : ∀ asz, c ≠ .npfailRelease asz)
    (hdecay : ∀ a b, c ≠ .cellDecay a b) : ∃ t, exec c s = .next t ∧ LeavesPort s t := by
  have hpins := LeavesPort.setPins s
  match hreach : reachOf c with
  | .beside => exact exec_leavesPort hreach s
  | .registerWrite =>
    obtain ⟨a, v, hexec⟩ := exec_registerWrite hreach s
    exact ⟨_, hexec, LeavesPort.busWrite_of_fenced hstate a v⟩
  | .port | .array =>
    cases c with
    | powerOn asz nReset nPfail => exact absurd rfl (hpower _ _ _)
    | npfailRelease asz => exact absurd rfl (hrelease _)
    | cellDecay a b => exact absurd rfl (hdecay _ _)
    | nresetAssert => exact ⟨_, congrArg Host.Outcome.next (if_pos hstate), hpins _⟩
    | npfailAssert => exact ⟨_, congrArg Host.Outcome.next (if_pos hstate), hpins _⟩
    | nresetRelease asz =>
      refine ⟨_, congrArg Host.Outcome.next (if_neg ?_), (hpins _).trans (LeavesPort.setPins _ _)⟩
      simp [hstate]
    | enterFenced =>
      refine ⟨_, congrArg Host.Outcome.next (if_neg ?_), LeavesPort.refl s⟩
      simp [State.fenceDue, hstate]
    | grantDecision =>
      refine ⟨_, congrArg Host.Outcome.next (if_neg ?_), LeavesPort.refl s⟩
      simp [State.mayDecide_of_fenced hstate]
    | fetchComplete | verifyReadDone | mountReadDone | commitReadbackDone | wordWriteDone | rawWriteDone | mergeDone
    | copyDone | scrubWordDone | commitWriteDone | closingWriteDone | fillDone | formatCopyGrantDone =>
      exact ⟨_, congrArg Host.Outcome.next (State.completeKind_none hgrant _), LeavesPort.refl s⟩
    | _ => cases hreach

theorem step_of_fenced {s t : State} (hstate : s.dev.state = .fenced) (hgrant : s.port.grant = none)
    (hstep : step s = .next t) (hcommand : ∀ c, s.pending.head? = some c →
      (∀ asz nr np, c ≠ .powerOn asz nr np) ∧ (∀ asz, c ≠ .npfailRelease asz) ∧ ∀ a b, c ≠ .cellDecay a b) :
    t.array = s.array ∧ t.port = s.port ∧ t.dev.state = s.dev.state := by
  unfold step at hstep
  split at hstep
  · obtain rfl := Host.Outcome.next.inj hstep
    exact ⟨(LeavesPort.tick s).array, (LeavesPort.tick s).port, (LeavesPort.tick s).state⟩
  · rename_i c rest hpending
    obtain ⟨hpower, hrelease, hdecay⟩ := hcommand c (by simp [hpending])
    obtain ⟨u, hexec, hu⟩ := exec_of_fenced (s := { s with pending := rest }) hstate hgrant hpower hrelease hdecay
    obtain rfl : u = t := Host.Outcome.next.inj (hexec.symm.trans hstep)
    exact ⟨hu.array, hu.port, hu.state⟩

/-- R99: after an event the array's lines are idle. -/
theorem State.arrayPins_idle (s : State) : s.arrayPins = ArrayPins.idle := pinsOver_last _

/-- Settles O9. -/
theorem fencedLeavesTheArrayAlone : Obligations.FencedLeavesTheArrayAlone := by
  intro s t hstate hgrant hstep hcommand
  obtain ⟨harray, hport, hdev⟩ := step_of_fenced hstate hgrant hstep hcommand
  exact ⟨harray, by rw [hport], t.arrayPins_idle, by rw [hport, hgrant], hdev.trans hstate⟩

end Sys2Proof.Machine

namespace Sys2Proof.Machine

/-! ### What the code corrects and detects (R3 to R5) -/

theorem syndrome_encoded (d : Word) (tag : Bool) : syndrome { data := d, tag := tag, check := encode d tag } = 0#7 :=
  syndrome_of_valid rfl

/-- R4: one flipped bit is located by its signature and inverted. -/
theorem decodeWord_flipBit (d : Word) (tag : Bool) {i : Nat} (hi : i < 40) :
    decodeWord (flipBit { data := d, tag := tag, check := encode d tag } i) =
      { cls := if tag then .poisoned else .corrected, correctedFlag := true, data := d, tag := tag } := by
  have hsyn : syndrome (flipBit { data := d, tag := tag, check := encode d tag } i) = signatureAt i := by
    rw [syndrome_flipBit _ hi, syndrome_encoded, BitVec.zero_xor]
  rw [decodeWord, hsyn, if_neg (signatureAt_ne_zero hi), locate_signature hi]
  simp only [flipBit_flipBit]
  rfl

/-- R4: the syndrome of two flipped bits is not zero and the signature of no position. -/
theorem decodeWord_flipBit_flipBit (d : Word) (tag : Bool) {i j : Nat} (hi : i < 40) (hj : j < 40) (hne : i ≠ j) :
    (decodeWord (flipBit (flipBit { data := d, tag := tag, check := encode d tag } i) j)).cls = .uncorrectable := by
  have hsyn : syndrome (flipBit (flipBit { data := d, tag := tag, check := encode d tag } i) j) =
      signatureAt i ^^^ signatureAt j := by
    rw [syndrome_flipBit _ hj, syndrome_flipBit _ hi, syndrome_encoded, BitVec.zero_xor]
  have hzero : signatureAt i ^^^ signatureAt j ≠ 0 := fun h =>
    hne (signatureAt_inj hi hj (BitVec.xor_eq_zero_iff.mp h))
  rw [decodeWord, hsyn, if_neg hzero, locate_pair hi hj hne]

/-- Settles O18. -/
theorem oneFlipCorrectedTwoDetected : Obligations.OneFlipCorrectedTwoDetected :=
  ⟨fun d tag _ hi => decodeWord_flipBit d tag hi, fun d tag _ _ hi hj hne => decodeWord_flipBit_flipBit d tag hi hj hne⟩

/-- Settles O20: the location named is read, inverted and written back; every other location reads as before. -/
theorem cellDecayFlipsOneBit : Obligations.CellDecayFlipsOneBit := by
  intro s a bit hwf ha hbit
  refine ⟨s.array.put a.toNat (flipBit (s.array.get a.toNat) bit.toNat),
    congrArg Host.Outcome.next (if_pos ⟨ha, hbit⟩), fun k => ?_⟩
  rw [CellArray.get_put hwf]
  split
  · rename_i h
    rw [h]
  · rfl

/-! ### A copy written and read back (R32 to R36) -/

/-- The tests of a copy after its first `n` words have been read CLEAN. -/
theorem foldl_add_fresh (word : Nat → Word) (n : Nat) :
    (List.range n).foldl (fun f i => f.add i (decodeWord (freshWord (word i)))) CopyFold.start =
      { allGood := true, sum := ((List.range n).map word).sum, words := (List.range (min n 68)).map word } := by
  induction n with
  | zero => rfl
  | succ n ih =>
    rw [List.range_succ, List.foldl_append, ih]
    simp only [List.foldl_cons, List.foldl_nil, CopyFold.add, decodeWord_fresh, DecodeResult.good, beq_self_eq_true,
      Bool.true_or, Bool.and_true, List.map_append, List.sum_append, List.map_cons, List.map_nil, List.sum_cons,
      List.sum_nil, add_zero, CopyFold.mk.injEq, true_and]
    split
    · rename_i h
      rw [show min (n + 1) 68 = min n 68 + 1 by omega, List.range_succ, List.map_append,
        show min n 68 = n by omega]
      rfl
    · rename_i h
      rw [show min (n + 1) 68 = min n 68 by omega]

theorem foldOf_eq (word : Nat → Word) :
    foldOf word = { allGood := true, sum := ((List.range 256).map word).sum, words := (List.range 68).map word } :=
  foldl_add_fresh word 256

theorem foldOf_word (word : Nat → Word) {i : Nat} (hi : i < 68) : (foldOf word).word i = word i := by
  simp [foldOf_eq, CopyFold.word, hi]

/-! #### The fields of the stored words (R201) -/

theorem entryWord_getLsbD (e : RemapEntry) (i : Nat) : (entryWord e).getLsbD i =
    if i < 16 then (decide (i < 12) && e.logical.getLsbD i)
    else if i < 21 then (BitVec.ofNat 5 e.spare).getLsbD (i - 16) else decide (i = 31) := by
  have h : (entryWord e).getLsbD i =
    ((1#1 ++ 0#10 ++ BitVec.ofNat 5 e.spare) ++ (0#4 ++ e.logical)).getLsbD i := rfl
  simp only [h, BitVec.getLsbD_append]
  clear h
  by_cases h16 : i < 16
  · simp [h16]
  · by_cases h21 : i < 21
    · simp [h16, h21, show i - 16 < 5 by omega]
    · by_cases h31 : i = 31
      · simp [h31]
      · simp [h16, h21, h31, show ¬ i - 16 < 5 by omega]
        omega

theorem geometryWord_getLsbD (b n i : Nat) : (geometryWord b n).getLsbD i =
    if i < 16 then (BitVec.ofNat 16 b).getLsbD i
    else if i < 24 then (BitVec.ofNat 8 n).getLsbD (i - 16) else decide (i = 24) := by
  have h : (geometryWord b n).getLsbD i =
    ((1#8 ++ BitVec.ofNat 8 n) ++ BitVec.ofNat 16 b).getLsbD i := rfl
  simp only [h, BitVec.getLsbD_append]
  clear h
  by_cases h16 : i < 16
  · simp [h16]
  · by_cases h24 : i < 24
    · simp [h16, h24, show i - 16 < 8 by omega]
    · simp [h16, h24, show ¬ i - 16 < 8 by omega]
      omega

theorem entryOfWord_entryWord {e : RemapEntry} (h : e.spare < 32) : entryOfWord (entryWord e) = e := by
  have hlogical : (entryWord e).extractLsb' 0 12 = e.logical := by
    refine BitVec.eq_of_getLsbD_eq fun i hi => ?_
    simp [entryWord_getLsbD, hi, show i < 16 by omega]
  have hspare : (entryWord e).extractLsb' 16 5 = BitVec.ofNat 5 e.spare := by
    refine BitVec.eq_of_getLsbD_eq fun i hi => ?_
    simp [entryWord_getLsbD, hi, show 16 + i < 21 by omega]
  simp [entryOfWord, hlogical, hspare, Nat.mod_eq_of_lt h]

theorem entryWord_marked (e : RemapEntry) : (entryWord e).getLsbD 31 = true := by simp [entryWord_getLsbD]

/-- No bit outside the fields of an entry word is set. -/
theorem entryWord_and_mask (e : RemapEntry) : entryWord e &&& 0x7FE0F000#32 = 0#32 := by
  refine BitVec.eq_of_getLsbD_eq fun i hi => ?_
  have hmask : (0x7FE0F000#32).getLsbD i = true → 12 ≤ i ∧ i < 16 ∨ 21 ≤ i ∧ i < 31 := by
    revert i; decide
  rw [BitVec.getLsbD_and, BitVec.getLsbD_zero]
  cases hm : (0x7FE0F000#32).getLsbD i with
  | false => simp
  | true =>
    rw [entryWord_getLsbD]
    rcases hmask hm with ⟨h, k⟩ | ⟨h, k⟩
    · simp [k]; omega
    · simp [show ¬ i < 16 by omega, show ¬ i < 21 by omega]; omega

theorem spareOfWord_spareCode {st : SpareState} (h : st ≠ .allocated) :
    spareOfWord ((spareCode st).setWidth 32) = st := by
  cases st <;> simp_all [spareOfWord, spareCode]

theorem geometryWord_blocks {b : Nat} (n : Nat) (h : b < 65536) :
    ((geometryWord b n).extractLsb' 0 16).toNat = b := by
  have : (geometryWord b n).extractLsb' 0 16 = BitVec.ofNat 16 b :=
    BitVec.eq_of_getLsbD_eq fun i hi => by simp [geometryWord_getLsbD, hi]
  rw [this, BitVec.toNat_ofNat, Nat.mod_eq_of_lt h]

theorem geometryWord_spares (b : Nat) {n : Nat} (h : n < 256) :
    ((geometryWord b n).extractLsb' 16 8).toNat = n := by
  have : (geometryWord b n).extractLsb' 16 8 = BitVec.ofNat 8 n :=
    BitVec.eq_of_getLsbD_eq fun i hi => by
      simp [geometryWord_getLsbD, hi, show 16 + i < 24 by omega]
  rw [this, BitVec.toNat_ofNat, Nat.mod_eq_of_lt h]

theorem geometryWord_version (b n : Nat) : (geometryWord b n).extractLsb' 24 8 = 1#8 := by
  refine BitVec.eq_of_getLsbD_eq fun i hi => ?_
  simp [geometryWord_getLsbD, hi, show ¬ 24 + i < 16 by omega]

/-! #### The words of a record -/

theorem Snapshot.sumBelow_eq (r : Snapshot) (n : Nat) : r.sumBelow n = ((List.range n).map r.bodyWord).sum := by
  induction n with
  | zero => rfl
  | succ n ih => simp [Snapshot.sumBelow, ih, List.range_succ]

/-- R32: the 256 words of a copy sum to 0. -/
theorem Snapshot.sum_wordAt (r : Snapshot) : ((List.range 256).map r.wordAt).sum = 0 := by
  have hbody : (List.range 255).map r.wordAt = (List.range 255).map r.bodyWord :=
    List.map_congr_left fun i hi => if_neg (by have := List.mem_range.1 hi; omega)
  have hcheck : r.wordAt 255 = -((List.range 255).map r.bodyWord).sum := by
    rw [← r.sumBelow_eq]
    rfl
  rw [List.range_succ, List.map_append, List.sum_append, hbody]
  simp [hcheck]

theorem Snapshot.wordAt_entry (r : Snapshot) {i : Nat} (hi : i < 32) :
    r.wordAt (4 + i) = (r.entries[i]?.map entryWord).getD 0 := by
  simp only [Snapshot.wordAt, Snapshot.bodyWord, show ¬ 4 + i = 255 by omega, show ¬ 4 + i = 0 by omega,
    show ¬ 4 + i = 1 by omega, show ¬ 4 + i = 2 by omega, show ¬ 4 + i = 3 by omega, show 4 + i < 36 by omega,
    if_true, if_false, Nat.add_sub_cancel_left]
  cases r.entries[i]? <;> rfl

theorem Snapshot.wordAt_spare (r : Snapshot) {k : Nat} (hk : k < 32) :
    r.wordAt (36 + k) = (r.spares[k]?.map fun st => (spareCode st).setWidth 32).getD 0 := by
  simp only [Snapshot.wordAt, Snapshot.bodyWord, show ¬ 36 + k = 255 by omega, show ¬ 36 + k = 0 by omega,
    show ¬ 36 + k = 1 by omega, show ¬ 36 + k = 2 by omega, show ¬ 36 + k = 3 by omega, show ¬ 36 + k < 36 by omega,
    show 36 + k < 68 by omega, if_true, if_false, Nat.add_sub_cancel_left]
  cases r.spares[k]? <;> rfl

theorem spareOfWord_eq_inUse (w : Word) : (spareOfWord w == .inUse) = (w == 1) := by
  by_cases h1 : w = 1
  · rw [h1]
    rfl
  · rw [beq_eq_false_iff_ne.2 h1, spareOfWord, if_neg h1]
    split <;> rfl

/-! #### What a mount takes from the words of a sound record -/

section
variable {r : Snapshot} (h : r.Sound)
include h

theorem Snapshot.Sound.entries_le : r.entries.length ≤ r.spares.length := h.count ▸ List.count_le_length

theorem Snapshot.Sound.blocks_lt : r.blocks < 65536 := by
  have := h.blocks
  simp only [List.mem_cons, List.not_mem_nil, or_false] at this
  omega

theorem Snapshot.Sound.spare_lt {e : RemapEntry} (he : e ∈ r.entries) : e.spare < r.spares.length :=
  (List.getElem?_eq_some_iff.1 (h.inUse e he)).1

theorem Snapshot.Sound.storedP_eq : (foldOf r.wordAt).storedP = r.blocks := by
  rw [CopyFold.storedP, foldOf_word _ (by decide)]
  exact geometryWord_blocks _ h.blocks_lt

theorem Snapshot.Sound.storedS_eq : (foldOf r.wordAt).storedS = r.spares.length := by
  rw [CopyFold.storedS, foldOf_word _ (by decide)]
  exact geometryWord_spares _ (Nat.lt_of_le_of_lt h.spares (by decide))

theorem Snapshot.Sound.count_eq : (foldOf r.wordAt).count = r.entries.length := by
  have : r.entries.length < 2 ^ 32 := by have := h.entries_le; have := h.spares; omega
  rw [CopyFold.count, foldOf_word _ (by decide)]
  exact (BitVec.toNat_ofNat _ _).trans (Nat.mod_eq_of_lt this)

theorem Snapshot.Sound.word_entry {i : Nat} (hi : i < r.entries.length) :
    (foldOf r.wordAt).word (4 + i) = entryWord r.entries[i] := by
  have : i < 32 := by have := h.entries_le; have := h.spares; omega
  rw [foldOf_word _ (by omega), r.wordAt_entry this, List.getElem?_eq_getElem hi]
  rfl

theorem Snapshot.Sound.word_spare {k : Nat} (hk : k < r.spares.length) :
    (foldOf r.wordAt).word (36 + k) = (spareCode r.spares[k]).setWidth 32 := by
  have : k < 32 := by have := h.spares; omega
  rw [foldOf_word _ (by omega), r.wordAt_spare this, List.getElem?_eq_getElem hk]
  rfl

theorem Snapshot.Sound.entries_eq : (foldOf r.wordAt).entries = r.entries := by
  refine List.ext_getElem (by simp [CopyFold.entries, h.count_eq]) fun i _ hi => ?_
  have hspare : r.entries[i].spare < 32 := Nat.lt_of_lt_of_le (h.spare_lt (List.getElem_mem hi)) h.spares
  simp [CopyFold.entries, h.word_entry hi, entryOfWord_entryWord hspare]

theorem Snapshot.Sound.spares_eq : (foldOf r.wordAt).spares = r.spares := by
  refine List.ext_getElem (by simp [CopyFold.spares, h.storedS_eq]) fun k _ hk => ?_
  have : r.spares[k] ≠ .allocated := fun e => h.recorded (e ▸ List.getElem_mem hk)
  simp [CopyFold.spares, h.word_spare hk, spareOfWord_spareCode this]

/-! #### The tests T6 to T10 of a sound record (R34) -/

theorem Snapshot.Sound.t6 : (foldOf r.wordAt).t6 = true := by
  simp [CopyFold.t6, h.count_eq, h.storedS_eq, h.entries_le, h.spares]

theorem Snapshot.Sound.t7 : (foldOf r.wordAt).t7 = true := by
  simpa [CopyFold.t7, h.storedP_eq] using h.blocks

theorem Snapshot.Sound.entryOk {e : RemapEntry} (he : e ∈ r.entries) :
    (foldOf r.wordAt).entryOk (entryWord e) = true := by
  have hspare := h.spare_lt he
  simp [CopyFold.entryOk, entryWord_marked, entryWord_and_mask, CopyFold.storedL, h.storedP_eq, h.storedS_eq,
    entryOfWord_entryWord (Nat.lt_of_lt_of_le hspare h.spares), hspare, h.logical e he]

theorem Snapshot.Sound.t8 : (foldOf r.wordAt).t8 = true := by
  simp only [CopyFold.t8, h.entries_eq, h.count_eq, Bool.and_eq_true, decide_eq_true_eq]
  refine ⟨⟨List.all_eq_true.2 fun i hi => ?_, h.distinct⟩, h.disjoint⟩
  split
  · rename_i hlt
    rw [h.word_entry hlt]
    exact h.entryOk (List.getElem_mem hlt)
  · rename_i hge
    have hi := List.mem_range.1 hi
    rw [foldOf_word _ (by omega), r.wordAt_entry hi, List.getElem?_eq_none (by omega)]
    rfl

theorem Snapshot.Sound.t9 : (foldOf r.wordAt).t9 = true := by
  simp only [CopyFold.t9, h.entries_eq, h.storedS_eq, Bool.and_eq_true]
  refine ⟨List.all_eq_true.2 fun k hk => ?_, List.all_eq_true.2 fun e he => ?_⟩
  · split
    · rename_i hlt
      have : r.spares[k] ≠ .allocated := fun e => h.recorded (e ▸ List.getElem_mem hlt)
      rw [h.word_spare hlt]
      cases hst : r.spares[k] with
      | allocated => exact absurd hst this
      | free => rfl
      | inUse => rfl
      | condemned => rfl
    · rename_i hge
      have hk := List.mem_range.1 hk
      rw [foldOf_word _ (by omega), r.wordAt_spare hk, List.getElem?_eq_none (by omega)]
      rfl
  · have hlt := h.spare_lt he
    have hst : r.spares[e.spare] = .inUse := (List.getElem?_eq_some_iff.1 (h.inUse e he)).2
    rw [h.word_spare hlt, hst]
    rfl

theorem Snapshot.Sound.t10 : (foldOf r.wordAt).t10 = true := by
  have hcount : (foldOf r.wordAt).spares.count .inUse = (foldOf r.wordAt).count := by
    rw [h.spares_eq, h.count_eq, h.count]
  rw [CopyFold.t10, beq_iff_eq, ← hcount, CopyFold.spares, List.count_eq_countP, List.countP_map,
    ← List.countP_eq_length_filter]
  exact List.countP_congr fun k _ => by rw [← spareOfWord_eq_inUse, Function.comp]

theorem Snapshot.Sound.sound : (foldOf r.wordAt).sound = true := by
  have hgood : (foldOf r.wordAt).allGood = true := by rw [foldOf_eq]
  have hsum : (foldOf r.wordAt).sum = 0 := by rw [foldOf_eq]; exact r.sum_wordAt
  have hsignature : (foldOf r.wordAt).word 0 = signature := foldOf_word _ (by decide)
  have hgen : (foldOf r.wordAt).gen = r.gen := foldOf_word _ (by decide)
  have hversion : (foldOf r.wordAt).version = 1 := by
    rw [CopyFold.version, foldOf_word _ (by decide)]
    exact geometryWord_version _ _
  have hne : r.gen ≠ 0#32 := h.gen
  simp [CopyFold.sound, hgood, hsum, hsignature, hgen, hversion, hne, h.t6, h.t7, h.t8, h.t9, h.t10]

theorem Snapshot.Sound.verdict (p : Nat) :
    (foldOf r.wordAt).verdict p = if r.blocks = p then .valid else .foreign := by
  rw [CopyFold.verdict, if_pos h.sound, h.storedP_eq]

end

/-- A copy whose closing write has not come holds zero where the signature belongs. -/
theorem Snapshot.verdict_attemptWord (r : Snapshot) (p : Nat) : (foldOf r.attemptWord).verdict p = .invalid := by
  have hword : (foldOf r.attemptWord).word 0 = 0 := foldOf_word _ (by decide)
  refine if_neg fun hsound => ?_
  have hzero : ((foldOf r.attemptWord).word 0 == signature) = false := by rw [hword]; rfl
  simp [CopyFold.sound, hzero] at hsound

/-- Settles O21. -/
theorem writtenCopyMountsBack : Obligations.WrittenCopyMountsBack :=
  ⟨fun r h => ⟨by rw [h.verdict, if_pos rfl], foldOf_word r.wordAt (by decide), h.entries_eq, h.spares_eq,
      fun p hp => by rw [h.verdict, if_neg hp.symm]⟩,
    fun r p => r.verdict_attemptWord p⟩

end Sys2Proof.Machine

namespace Sys2Proof.Machine

/-! ### CTRL writes by channel state (R58, R59, R75, R76) -/

theorem ctrlMode_eq (v : Half) : ctrlMode v = if v.getLsbD 1 then (if v.getLsbD 0 then .rawWrite else .rawRead)
    else (if v.getLsbD 0 then .write else .read) := by
  have h0 : v.getLsbD 0 = (v.extractLsb' 0 2).getLsbD 0 := by simp
  have h1 : v.getLsbD 1 = (v.extractLsb' 0 2).getLsbD 1 := by simp
  rw [h0, h1, ctrlMode]
  generalize v.extractLsb' 0 2 = x
  revert x
  decide

theorem ctrlWidth_eq (v : Half) : ctrlWidth v =
    if v.extractLsb' 2 2 = 1 then .halfLow else if v.extractLsb' 2 2 = 2 then .halfHigh else .word := by
  rw [ctrlWidth]
  generalize v.extractLsb' 2 2 = x
  revert x
  decide

theorem Channel.loadSettings_eq (c : Channel) (v : Half) : c.loadSettings v = { c with
    mode := if v.getLsbD 1 then (if v.getLsbD 0 then .rawWrite else .rawRead)
      else (if v.getLsbD 0 then .write else .read)
    width := if v.extractLsb' 2 2 = 1 then .halfLow else if v.extractLsb' 2 2 = 2 then .halfHigh else .word
    step := if v.getLsbD 4 then .down else .up
    policy := if v.getLsbD 5 then .wrap else .stop } := by
  rw [← ctrlMode_eq, ← ctrlWidth_eq]
  rfl

theorem Channel.close_eq (c : Channel) : c.close = { c with
    readAhead := [], state := if c.writeQ = [] then .closed else .draining, holds := !c.reads && c.holds } := by
  rw [Channel.close, Channel.discard_eq]
  cases c.writeQ <;> rfl

section
variable {s : State} {n : Fin 4} {v : Half} (hdev : s.dev.state ≠ .fenced)
include hdev

theorem State.writeCtrl_closed (hc : (s.chan n).state = .closed) : s.writeCtrl n v =
    if ctrlOpenBit v then (s.setChan n ((s.chan n).loadSettings v)).requestOpen n
    else s.setChan n ((s.chan n).loadSettings v) := by
  simp only [State.writeCtrl, if_neg hdev, hc]

theorem State.writeCtrl_open_draining (hv : ctrlOpenBit v = true) (hc : (s.chan n).state = .draining) :
    s.writeCtrl n v = s.setChan n { s.chan n with openRefused := some .notClosed } := by
  have hrefused : s.openCheck (s.chan n) = some .notClosed := s.openCheck_notClosed (by simp [hc])
  simp only [State.writeCtrl, if_neg hdev, hc, hv, if_true, State.requestOpen, hrefused]

theorem State.writeCtrl_open_idle (hv : ctrlOpenBit v = true)
    (hc : (s.chan n).state = .opened ∨ (s.chan n).state = .ended) : s.writeCtrl n v = s := by
  rcases hc with hc | hc <;> simp only [State.writeCtrl, if_neg hdev, hc, hv, if_true]

theorem State.writeCtrl_close (hv : ctrlOpenBit v = false)
    (hc : (s.chan n).state = .opened ∨ (s.chan n).state = .ended ∨ (s.chan n).state = .faulted) :
    s.writeCtrl n v = s.setChan n (s.chan n).close := by
  rcases hc with hc | hc | hc <;>
    simp only [State.writeCtrl, if_neg hdev, hc, hv, Bool.false_eq_true, if_false]

theorem State.writeCtrl_retry (hv : ctrlOpenBit v = true) (hr : ctrlResume v = .retry)
    (hc : (s.chan n).state = .faulted) : s.writeCtrl n v = s.setChan n (s.chan n).retry := by
  simp only [State.writeCtrl, if_neg hdev, hc, hv, if_true, hr]

theorem State.writeCtrl_skip (hv : ctrlOpenBit v = true) (hr : ctrlResume v = .skip)
    (hc : (s.chan n).state = .faulted) : s.writeCtrl n v = s.setChan n (s.chan n).skip := by
  simp only [State.writeCtrl, if_neg hdev, hc, hv, if_true, hr]

end

/-- R58: the CTRL rows are one write of CTRL. -/
theorem State.hostWrite_writeCtrl {s : State} (h : s.busOpen) (n : Fin 4) (v : Half) :
    (s.hostWrite fun x => x.writeCtrl n v) = s.latched.writeCtrl n v := State.hostWrite_free h.1 _

/-- Settles O22. -/
theorem ctrlByState : Obligations.CtrlByState := by
  refine ⟨fun s n v hopen hv hc => ?_, fun s n v hopen hv => ⟨fun hc => ?_, fun hc => ?_⟩,
    fun s n v hopen hv hc => ?_⟩
  · refine congrArg Host.Outcome.next ((State.hostWrite_writeCtrl hopen n v).trans ?_)
    rw [State.writeCtrl_closed (s := s.latched) hopen.2 hc, if_neg (by simp [hv]), Channel.loadSettings_eq]
    rfl
  · exact congrArg Host.Outcome.next ((State.hostWrite_writeCtrl hopen n v).trans
      (State.writeCtrl_open_draining (s := s.latched) hopen.2 hv hc))
  · exact congrArg Host.Outcome.next ((State.hostWrite_writeCtrl hopen n v).trans
      (State.writeCtrl_open_idle (s := s.latched) hopen.2 hv hc))
  · refine congrArg Host.Outcome.next ((State.hostWrite_writeCtrl hopen n v).trans ?_)
    rw [State.writeCtrl_close (s := s.latched) hopen.2 hv hc, Channel.close_eq]
    rfl

/-! ### The checks of an open (R59) -/

theorem wordAddr_toNat (b : Block) (o : Offset) : (wordAddr b o).toNat = b.toNat * 256 + o.toNat := by
  rw [wordAddr, BitVec.toNat_append, ← Nat.shiftLeft_add_eq_or_of_lt o.isLt, Nat.shiftLeft_eq]

theorem Channel.inWindow_iff (c : Channel) (a : Addr) :
    c.inWindow a = true ↔ c.winFirst.toNat * 256 ≤ a.toNat ∧ a.toNat ≤ c.winLast.toNat * 256 + 255 := by
  simp [Channel.inWindow, Channel.firstWord, Channel.lastWord, BitVec.le_def, wordAddr_toNat]

/-- R59's table as a chain of conditions, the first that fails giving the reason: the condition on the device state
depends on the mode alone. -/
theorem State.openCheck_closed (s : State) {c : Channel} (hc : c.state = .closed) :
    s.openCheck c =
      if (c.mode = .rawRead ∨ c.mode = .rawWrite) ∧ s.diag.rawEnable = false ∧
        ¬ (s.dev.state = .mounting ∨ s.dev.state = .formatting) then some .rawDisabled
      else if ¬ (s.dev.state = .ready ∧ c.mode ≠ .rawWrite ∨
        (s.dev.state = .unformatted ∨ s.dev.state = .foreign) ∧ (c.mode = .rawRead ∨ c.mode = .rawWrite)) then
        some .deviceState
      else if ¬ (c.winFirst ≤ c.winLast ∧ c.winLast.toNat <
        if c.mode = .rawRead ∨ c.mode = .rawWrite then s.physBlocks else s.logicalBlocks) then some .window
      else if ¬ c.inWindow c.pointer then some .pointer
      else none := by
  cases hm : c.mode <;> cases hd : s.dev.state <;> simp [State.openCheck, hc, hm, hd, imp_iff_not_or]

/-- An open of a CLOSED channel: the settings are loaded, and the check of what was loaded decides. -/
theorem State.writeCtrl_open_closed {s : State} {n : Fin 4} {v : Half} {c : Channel} (hdev : s.dev.state ≠ .fenced)
    (hv : ctrlOpenBit v = true) (hclosed : (s.chan n).state = .closed) (hc : c = (s.chan n).loadSettings v) :
    s.writeCtrl n v = match s.openCheck c with
      | some reason => s.setChan n { c with openRefused := some reason }
      | none => s.setChan n c.openTaken := by
  have hcheck : (s.setChan n c).openCheck c = s.openCheck c := rfl
  rw [State.writeCtrl_closed hdev hclosed, if_pos hv, ← hc, State.requestOpen, State.setChan_chan_self, hcheck]
  cases s.openCheck c <;> simp only [State.setChan_setChan]

theorem Channel.openTaken_eq (c : Channel) : c.openTaken = { c with
    state := .opened, readAhead := [], writeQ := [], faultKind := .noFault, faultAddr := 0,
    writeIgnored := false, openRefused := none,
    fetchPtr := if c.mode = .read ∨ c.mode = .rawRead then some c.pointer else c.fetchPtr } := by
  cases h : c.mode <;> simp [Channel.openTaken, Channel.reads, h]

/-- Settles O23: each row of the table is a branch of `State.openCheck_closed`. -/
theorem openIsCheckedInOrder : Obligations.OpenIsCheckedInOrder := by
  intro s n v c hopen hv hclosed hc raw stateOk limit windowOk pointerOk refused midway
  have hcs : c.state = .closed := by rw [hc]; exact hclosed
  have hexec : exec (.channelOpen n v) s = .next (s.latched.writeCtrl n v) :=
    congrArg Host.Outcome.next (State.hostWrite_writeCtrl hopen n v)
  have hcheck : s.latched.openCheck c = _ := State.openCheck_closed s hcs
  have hwrite := State.writeCtrl_open_closed (s := s.latched) hopen.2 hv hclosed hc
  have hrefused (r : RefuseReason) (h : s.latched.openCheck c = some r) : refused r := by
    simp only [refused, hexec, hwrite, h]
  have hmidway (h : midway) : ¬ stateOk := by
    rcases h with h | h <;> simp [stateOk, h]
  refine ⟨fun h => hrefused _ ?_, fun h => hrefused _ ?_, fun h => hrefused _ ?_, fun h => hrefused _ ?_,
    fun h => hrefused _ ?_, fun h => ?_⟩
  · rw [hcheck, if_pos h]
  · rw [hcheck, if_neg (fun k => k.2.2 h), if_pos (hmidway h)]
  · rw [hcheck, if_neg (fun k => h.1 ⟨k.1, k.2.1⟩), if_pos h.2]
  · rw [hcheck, if_neg (fun k => h.1 ⟨k.1, k.2.1⟩), if_neg (not_not_intro h.2.1), if_pos h.2.2]
  · rw [hcheck, if_neg (fun k => h.1 ⟨k.1, k.2.1⟩), if_neg (not_not_intro h.2.1), if_neg (not_not_intro h.2.2.1),
      if_pos fun k => h.2.2.2 ((c.inWindow_iff _).1 k)]
  · rw [if_neg (fun k => h.1 ⟨k.1, k.2.1⟩), if_neg (not_not_intro h.2.1), if_neg (not_not_intro h.2.2.1),
      if_neg (not_not_intro ((c.inWindow_iff _).2 h.2.2.2))] at hcheck
    rw [hexec, hwrite, hcheck]
    simp only [Channel.openTaken_eq]

/-! ### RESUME, a step of an address, a pointer write (R56, R57, R61, R75) -/

theorem Channel.resumeAt_inWindow {c : Channel} {a : Addr} (h : c.inWindow a = true) : c.resumeAt a = { c with
    readAhead := [], holds := !c.reads && c.holds, pointer := a, state := .opened, faultKind := .noFault,
    fetchPtr := if c.reads then some a else c.fetchPtr } := by
  simp only [Channel.resumeAt, Channel.discard_eq, h, if_true]

theorem Channel.resumeAt_outside {c : Channel} {a : Addr} (h : c.inWindow a = false) : c.resumeAt a = { c with
    readAhead := [], holds := !c.reads && c.holds, pointer := a, state := .faulted, faultKind := .pointerOutside,
    faultAddr := a } := by
  simp only [Channel.resumeAt, Channel.discard_eq, h, Bool.false_eq_true, if_false, Channel.fault]

theorem Channel.retry_eq {c : Channel} (hc : c.state = .faulted) : c.retry =
    if c.inWindow c.faultAddr then { c with
      readAhead := [], holds := !c.reads && c.holds, pointer := c.faultAddr, state := .opened, faultKind := .noFault,
      fetchPtr := if c.reads then some c.faultAddr else c.fetchPtr }
    else { c with
      readAhead := [], holds := !c.reads && c.holds, pointer := c.faultAddr, faultKind := .pointerOutside } := by
  rw [Channel.retry]
  split
  · rename_i h
    exact Channel.resumeAt_inWindow h
  · rename_i h
    rw [Channel.resumeAt_outside (Bool.eq_false_iff.2 h), ← hc]

theorem Channel.skip_atFarEdge {c : Channel} (h : c.stepped c.faultAddr = none) : c.skip = { c with
    readAhead := [], holds := !c.reads && c.holds, pointer := c.faultAddr, state := .ended } := by
  simp only [Channel.skip, h, Channel.discard_eq]

theorem Channel.skip_stepped {c : Channel} {a : Addr} (h : c.stepped c.faultAddr = some a) :
    c.skip = c.resumeAt a := by
  simp only [Channel.skip, h]

theorem ctrlResume_retry {v : Half} (h : ctrlResumeBits v = 1) : ctrlResume v = .retry := by
  rw [ctrlResume, h]
  rfl

theorem ctrlResume_skip {v : Half} (h : ctrlResumeBits v = 2) : ctrlResume v = .skip := by
  rw [ctrlResume, h]
  rfl

theorem Channel.stepped_atFarEdge_stop {c : Channel} {a : Addr} (h : a = c.farEdge) (hp : c.policy = .stop) :
    c.stepped a = none := by
  simp only [Channel.stepped, if_pos h, hp]

theorem Channel.stepped_atFarEdge_wrap {c : Channel} {a : Addr} (h : a = c.farEdge) (hp : c.policy = .wrap) :
    c.stepped a = some c.nearEdge := by
  simp only [Channel.stepped, if_pos h, hp]

theorem Channel.lastWord_toNat (c : Channel) : c.lastWord.toNat = c.winLast.toNat * 256 + 255 := by
  simp [Channel.lastWord, wordAddr_toNat]

theorem Channel.firstWord_toNat (c : Channel) : c.firstWord.toNat = c.winFirst.toNat * 256 := by
  simp [Channel.firstWord, wordAddr_toNat]

/-- Below the last word of the window a step up stays inside it. -/
theorem Channel.stepped_up {c : Channel} {a : Addr} (hin : c.inWindow a = true) (h : a ≠ c.farEdge)
    (hs : c.step = .up) : c.stepped a = some (a + 1) ∧ c.inWindow (a + 1) = true := by
  have hedge : c.farEdge = c.lastWord := by rw [Channel.farEdge, hs]
  have hne : a.toNat ≠ c.winLast.toNat * 256 + 255 := fun e =>
    h (hedge ▸ BitVec.eq_of_toNat_eq (e.trans c.lastWord_toNat.symm))
  have hlast := c.winLast.isLt
  obtain ⟨hlo, hhi⟩ := (c.inWindow_iff a).1 hin
  have hnext : (a + 1).toNat = a.toNat + 1 := by
    rw [BitVec.toNat_add]
    exact Nat.mod_eq_of_lt (by simp; omega)
  refine ⟨?_, (c.inWindow_iff _).2 (by omega)⟩
  have htop : a ≠ BitVec.allOnes 20 := fun e => by
    rw [e] at hhi hne
    simp at hhi hne
    omega
  simp only [Channel.stepped, if_neg h, Channel.moved, hs, if_neg htop]

/-- Above the first word of the window a step down stays inside it. -/
theorem Channel.stepped_down {c : Channel} {a : Addr} (hin : c.inWindow a = true) (h : a ≠ c.farEdge)
    (hs : c.step = .down) : c.stepped a = some (a - 1) ∧ c.inWindow (a - 1) = true := by
  have hedge : c.farEdge = c.firstWord := by rw [Channel.farEdge, hs]
  have hne : a.toNat ≠ c.winFirst.toNat * 256 := fun e =>
    h (hedge ▸ BitVec.eq_of_toNat_eq (e.trans c.firstWord_toNat.symm))
  obtain ⟨hlo, hhi⟩ := (c.inWindow_iff a).1 hin
  have hprev : (a - 1).toNat = a.toNat - 1 := BitVec.toNat_sub_of_le (by rw [BitVec.le_def]; simp; omega)
  refine ⟨?_, (c.inWindow_iff _).2 (by omega)⟩
  have hzero : a ≠ 0 := fun e => by
    rw [e] at hlo hne
    simp at hlo hne
    omega
  simp only [Channel.stepped, if_neg h, Channel.moved, hs, if_neg hzero]

/-- Settles O24. -/
theorem resumeFromFault : Obligations.ResumeFromFault := by
  refine ⟨fun s n v hopen hv hr hc => ?_, fun s n v hopen hv hr hc => ?_, fun c a hin =>
    ⟨Channel.stepped_atFarEdge_stop, Channel.stepped_atFarEdge_wrap, Channel.stepped_up hin,
      Channel.stepped_down hin⟩⟩
  · have hretry : exec (.resumeRetry n v) s = .next (s.latched.setChan n (s.chan n).retry) :=
      congrArg Host.Outcome.next ((State.hostWrite_writeCtrl hopen n v).trans
        (State.writeCtrl_retry (s := s.latched) hopen.2 hv (ctrlResume_retry hr) hc))
    rw [hretry, Channel.retry_eq hc]
  · have hskip : exec (.resumeSkip n v) s = .next (s.latched.setChan n (s.chan n).skip) :=
      congrArg Host.Outcome.next ((State.hostWrite_writeCtrl hopen n v).trans
        (State.writeCtrl_skip (s := s.latched) hopen.2 hv (ctrlResume_skip hr) hc))
    refine ⟨fun hedge hstop => ?_, fun a hstep hin => ?_⟩
    · rw [hskip, Channel.skip_atFarEdge (Channel.stepped_atFarEdge_stop hedge hstop)]
    · rw [hskip, Channel.skip_stepped hstep, Channel.resumeAt_inWindow hin]

/-- R57: the stage above the value. -/
theorem Channel.formed_eq {c : Channel} {v : Half} {a : Addr} (h : a.toNat = c.ptrHigh.toNat * 65536 + v.toNat) :
    c.formed v = a := by
  refine BitVec.eq_of_toNat_eq ?_
  rw [h, Channel.formed, BitVec.toNat_append, ← Nat.shiftLeft_add_eq_or_of_lt v.isLt, Nat.shiftLeft_eq]

/-- Settles O25: the five states of the channel, and whether the new pointer lies in the window. -/
theorem pointerWriteByState : Obligations.PointerWriteByState := by
  intro s n v a hopen ha c moved
  refine congrArg Host.Outcome.next ((State.hostWrite_free hopen.1 _).trans ?_)
  rw [State.writePtrLo, if_neg hopen.2]
  refine congrArg (s.latched.setChan n) ?_
  have hformed : (s.latched.chan n).formed v = a := Channel.formed_eq ha
  rw [hformed]
  change c.movePointer a = _
  cases hc : c.state with
  | closed => simp only [Channel.movePointer, hc]
  | draining => simp only [Channel.movePointer, hc]
  | opened =>
    cases hw : c.inWindow a <;> simp [Channel.movePointer, hc, hw, Channel.discard_eq, Channel.fault, moved]
  | ended =>
    cases hw : c.inWindow a <;> simp [Channel.movePointer, hc, hw, Channel.discard_eq, Channel.fault, moved]
  | faulted =>
    cases hw : c.inWindow a <;> simp [Channel.movePointer, hc, hw, Channel.discard_eq, Channel.fault, moved]

end Sys2Proof.Machine

namespace Sys2Proof.Machine

/-! ### Delivering the head of the read-ahead queue (R64 to R66) -/

theorem State.loadSide_eq (s : State) (side : Option Side) :
    s.loadSide side = { s with diag := { s.diag with side := side.getD s.diag.side } } := by
  cases side <;> rfl

theorem State.checkHead_unmarked {s : State} {n : Fin 4} (h : ∀ x ∈ (s.chan n).readAhead, x.mark = none) :
    s.checkHead n = s := by
  unfold State.checkHead
  dsimp only
  split
  · split
    · rename_i e rest hra
      rw [h e (by simp [hra])]
    · rfl
  · rfl

theorem State.checkHead_marked {s : State} {n : Fin 4} {x : ReadEntry} {rest : List ReadEntry} {m : ReadMark}
    (hc : (s.chan n).state = .opened) (hra : (s.chan n).readAhead = x :: rest) (hm : x.mark = some m) :
    s.checkHead n = (s.setChan n ((s.chan n).fault (markKind m) (s.chan n).pointer)).post
      (channelRecord n m x.phys (s.chan n).pointer 0) := by
  simp only [State.checkHead, hc, if_true, hra, hm]

theorem State.consume_unmarked {s : State} {n : Fin 4} {e : ReadEntry} {rest : List ReadEntry}
    (hra : (s.chan n).readAhead = e :: rest) (h : ∀ x ∈ rest, x.mark = none) :
    s.consume n = s.setChan n (match (s.chan n).stepped (s.chan n).pointer with
      | some a => { s.chan n with readAhead := rest, pointer := a }
      | none => { s.chan n with readAhead := rest, state := .ended }) := by
  unfold State.consume
  dsimp only
  rw [hra, List.tail_cons]
  cases (s.chan n).stepped (s.chan n).pointer <;> exact State.checkHead_unmarked (by simpa using h)

/-- R64, R66: a marked entry becomes the head of an OPEN channel. -/
theorem State.consume_marked {s : State} {n : Fin 4} {e x : ReadEntry} {m : ReadMark} {a : Addr}
    (hc : (s.chan n).state = .opened) (hra : (s.chan n).readAhead = [e, x]) (hm : x.mark = some m)
    (hstep : (s.chan n).stepped (s.chan n).pointer = some a) :
    s.consume n = (s.setChan n { s.chan n with
      readAhead := [x], pointer := a, state := .faulted, faultAddr := a, faultKind := markKind m }).post
        (channelRecord n m x.phys a 0) := by
  unfold State.consume
  dsimp only
  rw [hra, List.tail_cons, hstep]
  refine (State.checkHead_marked (x := x) (rest := []) (m := m) (by simpa using hc) (by simp) hm).trans ?_
  simp [Channel.fault]

theorem State.readDataReg_head {s : State} {n : Fin 4} {e : ReadEntry} {rest : List ReadEntry}
    (hdev : s.dev.state ≠ .fenced) (hreads : (s.chan n).reads = true) (hc : (s.chan n).state = .opened)
    (hra : (s.chan n).readAhead = e :: rest) (high : Bool) : s.readDataReg n high = s.deliver n high e := by
  simp only [State.readDataReg, if_neg hdev, hreads, if_true, hc, hra]

theorem State.readDataReg_empty {s : State} {n : Fin 4}
    (hdev : s.dev.state ≠ .fenced) (hreads : (s.chan n).reads = true) (hc : (s.chan n).state = .opened)
    (hra : (s.chan n).readAhead = []) (high : Bool) : s.readDataReg n high = s.hold n high none := by
  simp only [State.readDataReg, if_neg hdev, hreads, if_true, hc, hra]

theorem State.deliver_low (s : State) (n : Fin 4) (e : ReadEntry) : s.deliver n false e = { s with
    host := { s.host with readData := e.data.extractLsb' 0 16 },
    diag := { s.diag with side := e.side.getD s.diag.side } } := by
  cases hs : e.side <;> simp [State.deliver, State.loadSide, State.answer, lowHalf, hs]

theorem State.deliver_high (s : State) (n : Fin 4) (e : ReadEntry) : s.deliver n true e = ({ s with
    host := { s.host with readData := e.data.extractLsb' 16 16 },
    diag := { s.diag with side := e.side.getD s.diag.side } } : State).consume n := by
  cases hs : e.side <;> simp [State.deliver, State.loadSide, State.answer, highHalf, hs]

/-- Settles O26. -/
theorem dataReadDelivers : Obligations.DataReadDelivers := by
  intro s n e rest hopen hreads hc hra hrest
  obtain ⟨hfree, hdev⟩ := hopen
  rw [exec_dataLoRead_busFree n hfree, exec_dataHiRead_busFree n hfree,
    State.readDataReg_head (s := s.latched) hdev hreads hc hra,
    State.readDataReg_head (s := s.latched) hdev hreads hc hra, State.deliver_low, State.deliver_high]
  exact ⟨rfl, congrArg Host.Outcome.next (State.consume_unmarked hra hrest)⟩

/-- Settles O27. -/
theorem markedEntryFaults : Obligations.MarkedEntryFaults := by
  intro s n e x m a hopen hreads hc hra hm hstep
  obtain ⟨hfree, hdev⟩ := hopen
  have hexec := (exec_dataHiRead_busFree n hfree).trans (congrArg Host.Outcome.next
    ((State.readDataReg_head (s := s.latched) hdev hreads hc hra true).trans
      ((State.deliver_high _ _ _).trans (State.consume_marked hc hra hm hstep))))
  refine ⟨_, hexec, rfl, ?_, ?_⟩
  · refine (State.setChan_chan_self _ _ _).trans ?_
    cases m <;> rfl
  · cases m <;> rfl

/-! ### Data-register writes (R68 to R72) -/

section
variable {s : State} {n : Fin 4} {v : Half} {high : Bool}

theorem State.writeDataReg_not_opened (hdev : s.dev.state ≠ .fenced) (hc : (s.chan n).state ≠ .opened) :
    s.writeDataReg n high v = s.ignoreWrite n := by
  simp only [State.writeDataReg, if_neg hdev, if_pos hc]

variable (hdev : s.dev.state ≠ .fenced) (hc : (s.chan n).state = .opened)
include hdev hc

theorem State.writeDataReg_ignored (hw : (s.chan n).writeMeaning s.diag.side high v = .ignore) :
    s.writeDataReg n high v = s.ignoreWrite n := by
  simp only [State.writeDataReg, if_neg hdev, if_neg (not_not_intro hc), hw]

theorem State.writeDataReg_staged {h : Half} (hw : (s.chan n).writeMeaning s.diag.side high v = .stage h) :
    s.writeDataReg n high v = s.setChan n { s.chan n with staging := h } := by
  simp only [State.writeDataReg, if_neg hdev, if_neg (not_not_intro hc), hw]

theorem State.writeDataReg_taken {w : WriteValue} (hw : (s.chan n).writeMeaning s.diag.side high v = .offer w)
    (hroom : (s.chan n).writeQ.length < 4) : s.writeDataReg n high v = s.accept n w := by
  simp only [State.writeDataReg, if_neg hdev, if_neg (not_not_intro hc), hw, if_pos hroom]

theorem State.writeDataReg_held {w : WriteValue} (hw : (s.chan n).writeMeaning s.diag.side high v = .offer w)
    (hfull : 4 ≤ (s.chan n).writeQ.length) : s.writeDataReg n high v = s.hold n high (some v) := by
  simp only [State.writeDataReg, if_neg hdev, if_neg (not_not_intro hc), hw, if_neg (Nat.not_lt.2 hfull)]

end

section
variable {c : Channel} {side : Side} {v : Half}

theorem Channel.writeMeaning_of_reads (h : c.reads = true) (high : Bool) : c.writeMeaning side high v = .ignore := by
  obtain ⟨mode⟩ := c
  cases mode with
  | read => rfl
  | rawRead => rfl
  | write => exact absurd h Bool.false_ne_true
  | rawWrite => exact absurd h Bool.false_ne_true

theorem Channel.writeMeaning_lo_staged (h : c.mode = .write ∧ c.width = .word ∨ c.mode = .rawWrite) :
    c.writeMeaning side false v = .stage v := by
  obtain ⟨mode, width⟩ := c
  rcases h with ⟨rfl, rfl⟩ | rfl <;> rfl

theorem Channel.writeMeaning_hi_word (hm : c.mode = .write) (hw : c.width = .word) :
    c.writeMeaning side true v = .offer (.word (v ++ c.staging)) := by
  obtain ⟨mode, width⟩ := c
  cases hm
  cases hw
  rfl

theorem Channel.writeMeaning_hi_raw (hm : c.mode = .rawWrite) :
    c.writeMeaning side true v = .offer (.raw (v ++ c.staging) side) := by
  obtain ⟨mode, width⟩ := c
  cases hm
  rfl

theorem Channel.writeMeaning_halfLow (hm : c.mode = .write) (hw : c.width = .halfLow) (high : Bool) :
    c.writeMeaning side high v = if high then .ignore else .offer (.halfLow v) := by
  obtain ⟨mode, width⟩ := c
  cases hm
  cases hw
  cases high <;> rfl

theorem Channel.writeMeaning_halfHigh (hm : c.mode = .write) (hw : c.width = .halfHigh) (high : Bool) :
    c.writeMeaning side high v = if high then .offer (.halfHigh v) else .ignore := by
  obtain ⟨mode, width⟩ := c
  cases hm
  cases hw
  cases high <;> rfl

/-- A DATA_HI write offers an entry in every write mode and width but HALF_LOW. -/
theorem Channel.writeMeaning_hi_offers (h : c.mode = .write ∧ c.width ≠ .halfLow ∨ c.mode = .rawWrite) :
    ∃ w, c.writeMeaning side true v = .offer w := by
  rcases h with ⟨hm, hwidth⟩ | hm
  · cases hw : c.width with
    | word => exact ⟨_, Channel.writeMeaning_hi_word hm hw⟩
    | halfLow => exact absurd hw hwidth
    | halfHigh => exact ⟨_, Channel.writeMeaning_halfHigh hm hw true⟩
  · exact ⟨_, Channel.writeMeaning_hi_raw hm⟩

end

theorem exec_dataLoWrite_busFree {s : State} (n : Fin 4) (v : Half) (h : s.busFree) :
    exec (.dataLoWrite n v) s = .next (s.latched.writeDataReg n false v) :=
  congrArg Host.Outcome.next (State.hostWrite_free h _)

theorem exec_dataHiWrite_busFree {s : State} (n : Fin 4) (v : Half) (h : s.busFree) :
    exec (.dataHiWrite n v) s = .next (s.latched.writeDataReg n true v) :=
  congrArg Host.Outcome.next (State.hostWrite_free h _)

/-- Settles O29: a read with nothing fetched, and an offer with the queue full. -/
theorem cycleIsHeld : Obligations.CycleIsHeld := by
  intro s n v hopen hc
  obtain ⟨hfree, hdev⟩ := hopen
  refine ⟨fun hreads hra => ⟨?_, ?_⟩, fun hmode hfull => ?_, fun hmode hwidth hfull => ?_⟩
  · exact ⟨_, (exec_dataLoRead_busFree n hfree).trans (congrArg Host.Outcome.next
      (State.readDataReg_empty (s := s.latched) hdev hreads hc hra false)), rfl, rfl⟩
  · exact ⟨_, (exec_dataHiRead_busFree n hfree).trans (congrArg Host.Outcome.next
      (State.readDataReg_empty (s := s.latched) hdev hreads hc hra true)), rfl, rfl⟩
  · obtain ⟨w, hw⟩ := Channel.writeMeaning_hi_offers (side := s.diag.side) (v := v) hmode
    exact ⟨_, (exec_dataHiWrite_busFree n v hfree).trans (congrArg Host.Outcome.next
      (State.writeDataReg_held (s := s.latched) hdev hc hw hfull)), rfl, rfl⟩
  · exact ⟨_, (exec_dataLoWrite_busFree n v hfree).trans (congrArg Host.Outcome.next
      (State.writeDataReg_held (s := s.latched) hdev hc (Channel.writeMeaning_halfLow hmode hwidth false) hfull)),
      rfl, rfl⟩

/-- Settles O30. -/
theorem dataWritesByWidth : Obligations.DataWritesByWidth := by
  intro s n v hopen c opened room ignored
  obtain ⟨hfree, hdev⟩ := hopen
  rw [exec_dataLoWrite_busFree n v hfree, exec_dataHiWrite_busFree n v hfree]
  refine ⟨fun h => ?_, fun hc hm => ?_, fun hr hm hw => ?_, fun hr hm => ?_, fun hr hm hw => ?_, fun hr hm hw => ?_,
    fun hc hm hw => ?_, fun hc hm hw => ?_⟩
  · have ignores (high : Bool) : s.latched.writeDataReg n high v = ignored := by
      by_cases hc : opened
      · exact State.writeDataReg_ignored (s := s.latched) hdev hc
          (Channel.writeMeaning_of_reads (h.resolve_left (not_not_intro hc)) high)
      · exact State.writeDataReg_not_opened (s := s.latched) hdev hc
    exact ⟨congrArg _ (ignores false), congrArg _ (ignores true)⟩
  · exact congrArg _ (State.writeDataReg_staged (s := s.latched) hdev hc (Channel.writeMeaning_lo_staged hm))
  · exact congrArg _ (State.writeDataReg_taken (s := s.latched) hdev hr.1 (Channel.writeMeaning_hi_word hm hw) hr.2)
  · exact congrArg _ (State.writeDataReg_taken (s := s.latched) hdev hr.1 (Channel.writeMeaning_hi_raw hm) hr.2)
  · exact congrArg _
      (State.writeDataReg_taken (s := s.latched) hdev hr.1 (Channel.writeMeaning_halfLow hm hw false) hr.2)
  · exact congrArg _
      (State.writeDataReg_taken (s := s.latched) hdev hr.1 (Channel.writeMeaning_halfHigh hm hw true) hr.2)
  · exact congrArg _ (State.writeDataReg_ignored (s := s.latched) hdev hc (Channel.writeMeaning_halfLow hm hw true))
  · exact congrArg _ (State.writeDataReg_ignored (s := s.latched) hdev hc (Channel.writeMeaning_halfHigh hm hw false))

/-! ### Acceptance (R69, R80) -/

theorem State.dropOthers_chan_of_ne (s : State) {n m : Fin 4} (h : m ≠ n) (a : Addr) :
    (s.dropOthers n a).chan m = (s.chan m).dropWord a := by
  have : ¬ m.val = n.val := fun e => h (Fin.ext e)
  simp [State.chan, State.dropOthers, this]

theorem Channel.dropWord_of_not_read {c : Channel} (h : c.mode ≠ .read) (a : Addr) : c.dropWord a = c := if_neg h

theorem Channel.dropWord_fetched {c : Channel} {a : Addr} {i : Nat} (h : c.mode = .read)
    (hi : c.readAhead.findIdx? (fun e => e.addr == a) = some i) :
    c.dropWord a = { c with readAhead := c.readAhead.take i, fetchPtr := some a, holds := false } := by
  simp only [Channel.dropWord, if_pos h, hi]

theorem Channel.dropWord_not_fetched {c : Channel} {a : Addr} (h : c.mode = .read)
    (hne : ∀ e ∈ c.readAhead, e.addr ≠ a) :
    c.dropWord a = { c with holds := c.holds && !decide (c.fetchPtr = some a) } := by
  have hi : c.readAhead.findIdx? (fun e => e.addr == a) = none := by simpa [List.findIdx?_eq_none_iff] using hne
  simp only [Channel.dropWord, if_pos h, hi]
  split
  · rename_i hf
    simp [hf]
  · rename_i hf
    simp [hf]

/-- R69: the accepting channel, an entry with the pointer as address at the tail of its queue. -/
def Channel.taken (c : Channel) (pos : Nat) (w : WriteValue) : Channel := { c with
  writeQ := c.writeQ ++ [{ addr := c.pointer, value := w, pos := pos }]
  pointer := (c.stepped c.pointer).getD c.pointer
  state := if (c.stepped c.pointer).isSome then .opened else .ended }

theorem State.accept_logical {s : State} {n : Fin 4} {w : WriteValue} (hc : (s.chan n).state = .opened)
    (hw : ∀ v d, w ≠ .raw v d) : s.accept n w =
      { (s.dropOthers n (s.chan n).pointer).setChan n ((s.chan n).taken s.nextPos w) with nextPos := s.nextPos + 1 } := by
  have hl : ∀ a p, WriteEntry.isLogical { addr := a, value := w, pos := p } = true := by
    cases w <;> simp_all [WriteEntry.isLogical]
  cases hs : (s.chan n).stepped (s.chan n).pointer <;> simp [State.accept, Channel.taken, hl, hs, hc]

theorem State.accept_raw {s : State} {n : Fin 4} {x : Word} {d : Side} (hc : (s.chan n).state = .opened) :
    s.accept n (.raw x d) = { s.setChan n ((s.chan n).taken s.nextPos (.raw x d)) with nextPos := s.nextPos + 1 } := by
  cases hs : (s.chan n).stepped (s.chan n).pointer <;>
    simp [State.accept, Channel.taken, WriteEntry.isLogical, hs, hc]

/-- Settles O31: the write is offered and there is room; a logical acceptance drops the word at every other channel. -/
theorem acceptanceDropsTheWordElsewhere : Obligations.AcceptanceDropsTheWordElsewhere := by
  intro s n v hopen hc hroom c taken logical
  obtain ⟨hfree, hdev⟩ := hopen
  have accepted (i : Instr) (w : WriteValue) (hw : ∀ x d, w ≠ .raw x d)
      (hexec : exec i s = .next (s.latched.accept n w)) : logical i w := by
    rw [State.accept_logical (s := s.latched) hc hw] at hexec
    have other (m : Fin 4) (h : m ≠ n) :
        (((s.latched.dropOthers n (s.chan n).pointer).setChan n (taken w)).chan m) =
          (s.chan m).dropWord (s.chan n).pointer :=
      (State.setChan_chan_of_ne _ h _).trans (State.dropOthers_chan_of_ne s.latched h _)
    refine ⟨_, hexec, State.setChan_chan_self _ _ _, fun m h hm => ?_, fun m i h hm hi => ?_, fun m h hm hne => ?_, rfl,
      rfl⟩
    · exact (other m h).trans (Channel.dropWord_of_not_read hm _)
    · exact (other m h).trans (Channel.dropWord_fetched hm hi)
    · exact (other m h).trans (Channel.dropWord_not_fetched hm hne)
  refine ⟨fun hm hw => accepted _ _ (by simp) ?_, fun hm hw => accepted _ _ (by simp) ?_,
    fun hm hw => accepted _ _ (by simp) ?_, fun hm => ?_⟩
  · exact (exec_dataLoWrite_busFree n v hfree).trans (congrArg Host.Outcome.next
      (State.writeDataReg_taken (s := s.latched) hdev hc (Channel.writeMeaning_halfLow hm hw false) hroom))
  · exact (exec_dataHiWrite_busFree n v hfree).trans (congrArg Host.Outcome.next
      (State.writeDataReg_taken (s := s.latched) hdev hc (Channel.writeMeaning_halfHigh hm hw true) hroom))
  · exact (exec_dataHiWrite_busFree n v hfree).trans (congrArg Host.Outcome.next
      (State.writeDataReg_taken (s := s.latched) hdev hc (Channel.writeMeaning_hi_word hm hw) hroom))
  · exact (exec_dataHiWrite_busFree n v hfree).trans (congrArg Host.Outcome.next
      ((State.writeDataReg_taken (s := s.latched) hdev hc (Channel.writeMeaning_hi_raw hm) hroom).trans
        (State.accept_raw (s := s.latched) hc)))

/-! ### The end of a held cycle (R70, R76) -/

section
variable {s : State} {h : HeldCycle} (hheld : s.host.held = some h)
include hheld

theorem State.settleHeld_read_left (hw : h.write = none)
    (hleft : s.dev.state = .fenced ∨ (s.chan h.chan).state ≠ .opened) : s.settleHeld = s.unhold.answer 0 := by
  simp only [State.settleHeld, hheld, hw, if_pos hleft]

theorem State.settleHeld_write_left {v : Half} (hw : h.write = some v)
    (hleft : s.dev.state = .fenced ∨ (s.chan h.chan).state ≠ .opened) :
    s.settleHeld = s.unhold.ignoreWrite h.chan := by
  simp only [State.settleHeld, hheld, hw, if_pos hleft]

variable (hdev : s.dev.state ≠ .fenced) (hc : (s.chan h.chan).state = .opened)
include hdev hc

theorem State.settleHeld_read_empty (hw : h.write = none) (hra : (s.chan h.chan).readAhead = []) :
    s.settleHeld = s := by
  simp [State.settleHeld, hheld, hw, hdev, hc, hra]

theorem State.settleHeld_read_head {e : ReadEntry} {rest : List ReadEntry} (hw : h.write = none)
    (hra : (s.chan h.chan).readAhead = e :: rest) : s.settleHeld = s.unhold.deliver h.chan h.high e := by
  simp [State.settleHeld, hheld, hw, hdev, hc, hra]

theorem State.settleHeld_write_full {v : Half} (hw : h.write = some v) (hfull : 4 ≤ (s.chan h.chan).writeQ.length) :
    s.settleHeld = s := by
  simp only [State.settleHeld, hheld, hw, hdev, hc, ne_eq, not_true_eq_false, or_self, if_false,
    if_neg (Nat.not_lt.2 hfull)]
  split <;> rfl

theorem State.settleHeld_write_room {v : Half} {w : WriteValue} (hw : h.write = some v)
    (hroom : (s.chan h.chan).writeQ.length < 4)
    (hm : (s.chan h.chan).writeMeaning s.diag.side h.high v = .offer w) :
    s.settleHeld = s.unhold.accept h.chan w := by
  simp only [State.settleHeld, hheld, hw, hdev, hc, ne_eq, not_true_eq_false, or_self, if_false, hm, if_pos hroom]

end

theorem State.drained_empty {s : State} {n : Fin 4} (hc : (s.chan n).state = .draining)
    (hq : (s.chan n).writeQ = []) : s.drained n = s.setChan n { s.chan n with state := .closed } := by
  simp only [State.drained, hc, hq, and_self, if_true]

/-- Settles O32. -/
theorem heldCycleEnds : Obligations.HeldCycleEnds := by
  refine ⟨fun s h hheld hdev => ?_, fun s n hc hq => congrArg Host.Outcome.next (State.drained_empty hc hq)⟩
  intro c answered accepted
  refine ⟨fun hw hc => ?_, fun hw hc hra => ?_, fun e rest hw hc hra => ?_, fun v hw hc => ?_, fun v hw hc hfull => ?_,
    fun v hw hc hroom => ?_⟩
  · exact congrArg Host.Outcome.next (State.settleHeld_read_left hheld hw (.inr hc))
  · exact congrArg Host.Outcome.next (State.settleHeld_read_empty hheld hdev hc hw hra)
  · have delivered : exec .heldCycleEnd s = .next (s.unhold.deliver h.chan h.high e) :=
      congrArg Host.Outcome.next (State.settleHeld_read_head hheld hdev hc hw hra)
    refine ⟨fun hlow => ?_, fun hhigh hrest => ?_, fun x m a hhigh hrest hm hstep => ?_⟩
    · rw [delivered, hlow, State.deliver_low]
      rfl
    · rw [delivered, hhigh, State.deliver_high]
      exact congrArg Host.Outcome.next (State.consume_unmarked hra hrest)
    · subst hrest
      rw [delivered, hhigh, State.deliver_high]
      refine congrArg Host.Outcome.next
        ((State.consume_marked (s := answered (e.data.extractLsb' 16 16) e) hc hra hm hstep).trans ?_)
      cases m <;> rfl
  · exact congrArg Host.Outcome.next (State.settleHeld_write_left hheld hw (.inr hc))
  · exact congrArg Host.Outcome.next (State.settleHeld_write_full hheld hdev hc hw hfull)
  · have room {w : WriteValue} (hoffer : (s.chan h.chan).writeMeaning s.diag.side h.high v = .offer w) : accepted w :=
      congrArg Host.Outcome.next (State.settleHeld_write_room hheld hdev hc hw hroom hoffer)
    refine ⟨fun hm hwidth hhigh => room ?_, fun hm hwidth hlow => room ?_, fun hm hwidth hhigh => room ?_,
      fun hm hhigh => room ?_⟩
    · rw [hhigh]
      exact Channel.writeMeaning_hi_word hm hwidth
    · rw [hlow]
      exact Channel.writeMeaning_halfLow hm hwidth false
    · rw [hhigh]
      exact Channel.writeMeaning_halfHigh hm hwidth true
    · rw [hhigh]
      exact Channel.writeMeaning_hi_raw hm

end Sys2Proof.Machine

namespace Sys2Proof.Machine

/-! ### One step -/

/-- Settles O1. -/
theorem stepRunsFrontCommand : Obligations.StepRunsFrontCommand := fun _ _ => rfl

theorem step_of_pending_nil {s : State} (h : s.pending = []) : step s = .next s.ageHeld.countTick := by
  rw [step, h]
  rfl

theorem State.ageHeld_none {s : State} (h : s.host.held = none) : s.ageHeld = s := by
  simp only [State.ageHeld, h]

theorem State.ageHeld_young {s : State} {h : HeldCycle} (hheld : s.host.held = some h) (hlt : h.ticks < 7) :
    s.ageHeld = { s with host := { s.host with held := some { h with ticks := h.ticks + 1 } } } := by
  simp only [State.ageHeld, hheld, if_neg (show ¬ 8 ≤ h.ticks + 1 by omega)]

theorem State.ageHeld_due {s : State} {h : HeldCycle} (hheld : s.host.held = some h) (heq : h.ticks = 7) :
    s.ageHeld = s.expireWait := by
  simp only [State.ageHeld, hheld, if_pos (show 8 ≤ h.ticks + 1 by omega)]

theorem State.countTick_idle {s : State} (h : s.timerRuns = false) : s.countTick = s := by
  simp [State.countTick, h]

theorem State.countTick_early {s : State} (h : s.timerRuns = true)
    (hlt : s.scrub.ticks.toNat + 1 < s.scrub.period.toNat) :
    s.countTick = { s with scrub := { s.scrub with ticks := s.scrub.ticks + 1 } } := by
  have hnot : ¬ s.scrub.period ≤ s.scrub.ticks + 1 := by bv_omega
  simp only [State.countTick, h, if_true, if_neg hnot]

theorem State.countTick_due {s : State} (h : s.timerRuns = true)
    (heq : s.scrub.ticks.toNat + 1 = s.scrub.period.toNat) : s.countTick = s.scrubTimer := by
  have hle : s.scrub.period ≤ s.scrub.ticks + 1 := by bv_omega
  simp only [State.countTick, State.scrubTimer, h, if_true, if_pos hle]

/-- The wait limit acts on the held cycle and its channel; the timer's side of the state stays. -/
theorem State.expireWait_scrub (s : State) : s.expireWait.scrub = s.scrub ∧ s.expireWait.dev = s.dev := by
  unfold State.expireWait
  split
  · exact ⟨rfl, rfl⟩
  · dsimp only
    split <;> exact ⟨rfl, rfl⟩

theorem State.expireWait_timerRuns (s : State) : s.expireWait.timerRuns = s.timerRuns := by
  rw [State.timerRuns, s.expireWait_scrub.1, s.expireWait_scrub.2]
  rfl

/-- Settles O2: first the held cycle's count, then the timer's. -/
theorem emptyQueueIsOneTick : Obligations.EmptyQueueIsOneTick := by
  refine ⟨fun s hp hnone => ?_, fun s h hp hheld => ?_⟩
  · rw [step_of_pending_nil hp, State.ageHeld_none hnone]
    exact ⟨fun hr => congrArg _ (State.countTick_idle hr), fun hr hlt => congrArg _ (State.countTick_early hr hlt),
      fun hr heq => congrArg _ (State.countTick_due hr heq)⟩
  · intro aged counted
    have young (hlt : h.ticks < 7) : step s = .next aged.countTick := by
      rw [step_of_pending_nil hp, State.ageHeld_young hheld hlt]
    have due (heq : h.ticks = 7) : step s = .next s.expireWait.countTick := by
      rw [step_of_pending_nil hp, State.ageHeld_due hheld heq]
    have hscrub := s.expireWait_scrub.1
    have hruns := s.expireWait_timerRuns
    refine ⟨fun hr => ⟨fun hlt => ?_, fun heq => ?_⟩, fun hr hcount => ⟨fun hlt => ?_, fun heq => ?_⟩,
      fun hr hcount => ⟨fun hlt => ?_, fun heq => ?_⟩⟩
    · exact (young hlt).trans (congrArg _ (State.countTick_idle (s := aged) hr))
    · exact (due heq).trans (congrArg _ (State.countTick_idle (hruns.trans hr)))
    · exact (young hlt).trans (congrArg _ (State.countTick_early (s := aged) hr hcount))
    · refine ⟨s.expireWait, rfl, (due heq).trans (congrArg _ ?_)⟩
      rw [State.countTick_early (hruns.trans hr) (by rw [hscrub]; exact hcount), hscrub]
    · exact (young hlt).trans (congrArg _ (State.countTick_due (s := aged) hr hcount))
    · exact ⟨s.expireWait, rfl, (due heq).trans (congrArg _ (State.countTick_due (hruns.trans hr)
        (by rw [hscrub]; exact hcount)))⟩

/-! ### Reset values -/

theorem State.reset_chan (n : Fin 4) : State.reset.chan n = Channel.reset := by
  simp [State.chan, State.reset]

theorem FaultTable.empty_slots {r : Option FaultRecord} (h : r ∈ FaultTable.empty.slots.toList) : r = none := by
  simpa [FaultTable.empty] using h

/-- Settles O4. -/
theorem resetValues : Obligations.ResetValues :=
  ⟨State.reset_chan, rfl, rfl, rfl, rfl, rfl, rfl, rfl, rfl, rfl, rfl, rfl, rfl, rfl, rfl, rfl, rfl, rfl, rfl, rfl, rfl,
    rfl, rfl, rfl, rfl, rfl, rfl, rfl, rfl, rfl, rfl, rfl, rfl, rfl, rfl, rfl,
    fun _ h => FaultTable.empty_slots h, rfl, rfl,
    rfl, rfl, rfl, rfl, rfl, rfl, rfl, rfl, rfl, rfl, rfl, rfl, rfl, rfl, rfl, rfl, rfl, rfl, rfl, rfl, rfl, rfl, rfl,
    rfl, rfl, rfl, rfl, rfl, rfl, rfl, rfl⟩

/-- Settles O15. -/
theorem resetMeetsInvariants : Obligations.ResetMeetsInvariants :=
  ⟨by decide, rfl, fun n => by rw [State.reset_chan]; decide, by decide⟩

/-! ### Pins and the fence (R171 to R173) -/

/-- Settles O5. -/
theorem powerOnByPins : Obligations.PowerOnByPins := by
  intro s asz hgrant
  have hlast := State.lastGrant_none hgrant
  have hon (nr np : Bool) : exec (.powerOn asz nr np) s = .next (s.powerOn asz nr np) := rfl
  refine ⟨?_, ?_, fun nr => ?_⟩
  · rw [hon, State.powerOn, hlast]
    rfl
  · rw [hon, State.powerOn, hlast]
    rfl
  · rw [hon, State.powerOn, hlast]
    rfl

/-- The state in FENCED before a held cycle ends. -/
def State.fencing (s : State) : State :=
  { s with dev := { s.dev with state := .fenced, inReset := false }, port := { s.port with stopped := true },
           scrub := { s.scrub with ticks := 0 } }

theorem State.fence_eq (s : State) : s.fence = s.fencing.settleHeld := rfl

theorem State.fence_none {s : State} (h : s.host.held = none) : s.fence = s.fencing :=
  State.settleHeld_none (s := s.fencing) h

theorem State.fenceIfDue_due {s : State} (hs : s.port.stopped = true) (hg : s.port.grant = none)
    (hd : s.dev.state ≠ .fenced) (hp : s.pins.nPfail = false) : s.fenceIfDue = s.fence := by
  simp [State.fenceIfDue, State.fenceDue, hs, hg, hd, State.enterFenced, hp]

theorem State.fenceIfDue_busy {s : State} (hg : s.port.grant.isSome = true) : s.fenceIfDue = s := by
  obtain ⟨g, hg⟩ := Option.isSome_iff_exists.1 hg
  simp [State.fenceIfDue, State.fenceDue, hg]

/-- nPFAIL goes low and stops the port. -/
def State.failing (s : State) : State :=
  { s with pins := { s.pins with nPfail := false }, port := { s.port with stopped := true } }

theorem exec_npfailAssert {s : State} (h : s.dev.state ≠ .fenced) :
    exec .npfailAssert s = .next s.failing.fenceIfDue := congrArg Host.Outcome.next (if_neg h)

/-- Settles O7. -/
theorem powerFailPin : Obligations.PowerFailPin := by
  refine ⟨fun s hdev => ?_, fun s asz hdev hnone => ?_⟩
  · rw [exec_npfailAssert hdev]
    refine ⟨fun hg hnone => congrArg Host.Outcome.next ?_, fun hg => congrArg Host.Outcome.next ?_⟩
    · exact (State.fenceIfDue_due (s := s.failing) rfl hg hdev rfl).trans (State.fence_none (s := s.failing) hnone)
    · exact State.fenceIfDue_busy (s := s.failing) hg
  · have hrelease : exec (.npfailRelease asz) s =
        .next (((s.setNPfail true).setAsz asz).clearAccesses.resetBy) := congrArg Host.Outcome.next (if_pos hdev)
    rw [hrelease]
    refine ⟨fun hn => congrArg Host.Outcome.next ?_, fun hn => congrArg Host.Outcome.next ?_⟩
    · have hpin : ((s.setNPfail true).setAsz asz).clearAccesses.pins = ⟨true, true, asz⟩ := by rw [← hn]; rfl
      rw [State.resetBy, hpin]
      refine (if_pos rfl).trans ?_
      simp only [State.leaveReset, State.resetAll, hpin]
      rfl
    · have hpin : ((s.setNPfail true).setAsz asz).clearAccesses.pins = ⟨false, true, asz⟩ := by rw [← hn]; rfl
      rw [State.resetBy, hpin]
      refine (if_neg (by simp)).trans ?_
      simp only [State.resetAll, hpin]
      rfl

/-- Settles O8: the fence is due, and a held cycle ends in it. -/
theorem fenceEntered : Obligations.FenceEntered := by
  intro s hs hg hd hp
  have hfence : exec .enterFenced s = .next s.fence := congrArg Host.Outcome.next (State.fenceIfDue_due hs hg hd hp)
  have hstopped : { s.port with stopped := true } = s.port := by rw [← hs]
  rw [hfence]
  refine ⟨fun hnone => ?_, fun h hheld hread => ?_, fun h v hheld hwrite => ?_⟩
  · rw [State.fence_none hnone, State.fencing, hstopped]
  · rw [State.fence_eq, State.settleHeld_read_left (s := s.fencing) hheld hread (.inl rfl), State.fencing, hstopped]
    rfl
  · rw [State.fence_eq, State.settleHeld_write_left (s := s.fencing) hheld hwrite (.inl rfl), State.fencing, hstopped]
    rfl

/-! ### Bus cycles while FENCED (R86, R168, R173) -/

theorem chanOf_winFirst (n : Fin 4) : chanOf (BitVec.ofNat 6 (0x14 + 8 * n.val)) = some n ∧
    ((BitVec.ofNat 6 (0x14 + 8 * n.val)).extractLsb' 0 3).toNat = 4 := by
  revert n
  decide

theorem chanOf_winLast (n : Fin 4) : chanOf (BitVec.ofNat 6 (0x15 + 8 * n.val)) = some n ∧
    ((BitVec.ofNat 6 (0x15 + 8 * n.val)).extractLsb' 0 3).toNat = 5 := by
  revert n
  decide

theorem State.writeRegister_winFirst (s : State) (n : Fin 4) (v : Half) :
    s.writeRegister (BitVec.ofNat 6 (0x14 + 8 * n.val)) v = s.writeWinFirst n v := by
  simp only [State.writeRegister, (chanOf_winFirst n).1, State.writeChanRegister, (chanOf_winFirst n).2]

theorem State.writeRegister_winLast (s : State) (n : Fin 4) (v : Half) :
    s.writeRegister (BitVec.ofNat 6 (0x15 + 8 * n.val)) v = s.writeWinLast n v := by
  simp only [State.writeRegister, (chanOf_winLast n).1, State.writeChanRegister, (chanOf_winLast n).2]

theorem exec_registerWrite_busFree {s : State} (h : s.busFree) (a : BitVec 6) (v : Half) :
    exec (.registerWrite a v) s = .next (s.latched.writeRegister a v) :=
  congrArg Host.Outcome.next (State.busWrite_free h a v)

/-- A clear asked for by a bit of the value written. -/
theorem State.writeIrqPending_eq (s : State) (v : Half) : s.writeIrqPending v =
    { s with irq := { s.irq with cmdDone := s.irq.cmdDone && !v.getLsbD 5 } } := by
  unfold State.writeIrqPending
  cases v.getLsbD 5 <;> simp

theorem State.writeCommand_fenced {s : State} (h : s.dev.state = .fenced) (v : Half) :
    s.writeCommand v = s.refuseCommand v := by
  rw [State.writeCommand, if_pos]
  simp [State.commandRefused, h]

theorem State.refuseCommand_keeps (s : State) (v : Half) : (s.refuseCommand v).cmd.refused = true ∧
    (s.refuseCommand v).cmd.running = s.cmd.running ∧ (s.refuseCommand v).events = s.events ∧
    (s.refuseCommand v).irq = s.irq := by
  unfold State.refuseCommand
  split <;> exact ⟨rfl, rfl, rfl, rfl⟩

/-- Settles O10: each register's own rule in FENCED. -/
theorem fencedBusCycles : Obligations.FencedBusCycles := by
  intro s n v hfree hdev
  have hwin : ¬ ((s.chan n).state = .closed ∧ s.dev.state ≠ .fenced) := fun k => k.2 hdev
  have write {i : Instr} {f : State → State} (hi : exec i s = .next (s.hostWrite f)) : exec i s = .next (f s.latched) :=
    hi.trans (congrArg Host.Outcome.next (State.hostWrite_free hfree f))
  have hread (high : Bool) : s.latched.readDataReg n high = s.latched.answer 0 := if_pos hdev
  refine ⟨(exec_dataLoRead_busFree n hfree).trans (congrArg _ (hread false)),
    (exec_dataHiRead_busFree n hfree).trans (congrArg _ (hread true)),
    (write (f := fun x => x.writeDataReg n false v) rfl).trans (congrArg _ (if_pos hdev)),
    (write (f := fun x => x.writeDataReg n true v) rfl).trans (congrArg _ (if_pos hdev)),
    (write (f := fun x => x.writeCtrl n v) rfl).trans (congrArg _ (if_pos hdev)),
    (write (f := fun x => x.writeCtrl n v) rfl).trans (congrArg _ (if_pos hdev)),
    (write (f := fun x => x.writePtrLo n v) rfl).trans (congrArg _ (if_pos hdev)), ?_, ?_,
    exec_registerWrite_busFree hfree _ _, ?_, write (f := State.popEvent) rfl, ?_,
    write (f := fun x => x.writeIrqEnable v) rfl, write (f := fun x => x.writeStatus n v) rfl⟩
  · rw [exec_registerWrite_busFree hfree, State.writeRegister_winFirst]
    exact congrArg _ (if_neg hwin)
  · rw [exec_registerWrite_busFree hfree, State.writeRegister_winLast]
    exact congrArg _ (if_neg hwin)
  · exact ⟨_, (write (f := fun x => x.writeCommand v) rfl).trans
      (congrArg _ (State.writeCommand_fenced (s := s.latched) hdev v)), s.latched.refuseCommand_keeps v⟩
  · rw [write (f := fun x => x.writeIrqPending v) rfl, State.writeIrqPending_eq]

/-! ### The interrupt pin (R166, R192) -/

theorem BitVec.and_bne_zero_iff {w : Nat} (x y : BitVec w) :
    (x &&& y != 0#w) = true ↔ ∃ i, i < w ∧ x.getLsbD i = true ∧ y.getLsbD i = true := by
  rw [bne_iff_ne]
  constructor
  · intro h
    by_contra hall
    push Not at hall
    refine h (BitVec.eq_of_getLsbD_eq fun i hi => ?_)
    have := hall i hi
    cases hx : x.getLsbD i <;> simp_all
  · rintro ⟨i, hi, hx, hy⟩ h
    have : (x &&& y).getLsbD i = true := by simp [hx, hy]
    rw [h] at this
    simp at this

/-- The seven bits of IRQ_PENDING, as one word of them. -/
theorem getLsbD_sevenBits (a b c d e f g : Bool) :
    let x : BitVec 7 := BitVec.ofBool a ++ BitVec.ofBool b ++ BitVec.ofBool c ++ BitVec.ofBool d ++ BitVec.ofBool e ++
      BitVec.ofBool f ++ BitVec.ofBool g
    x.getLsbD 0 = g ∧ x.getLsbD 1 = f ∧ x.getLsbD 2 = e ∧ x.getLsbD 3 = d ∧ x.getLsbD 4 = c ∧ x.getLsbD 5 = b ∧
      x.getLsbD 6 = a := by
  revert a b c d e f g
  decide

theorem State.irqPending_bits (s : State) :
    s.irqPending.getLsbD 0 = (!s.events.queue.isEmpty) ∧ (∀ n : Fin 4, s.irqPending.getLsbD (n.val + 1) = s.chanIrq n) ∧
      s.irqPending.getLsbD 5 = s.irq.cmdDone ∧ s.irqPending.getLsbD 6 = s.dev.dirReadonly := by
  obtain ⟨h0, h1, h2, h3, h4, h5, h6⟩ := getLsbD_sevenBits s.dev.dirReadonly s.irq.cmdDone (s.chanIrq 3) (s.chanIrq 2)
    (s.chanIrq 1) (s.chanIrq 0) (!s.events.queue.isEmpty)
  refine ⟨h0, fun n => ?_, h5, h6⟩
  match n with
  | 0 => exact h1
  | 1 => exact h2
  | 2 => exact h3
  | 3 => exact h4

theorem State.chanIrq_iff (s : State) (n : Fin 4) :
    s.chanIrq n = true ↔ (s.chan n).state = .faulted ∨ (s.chan n).state = .ended := by
  simp [State.chanIrq]

/-- Settles O17. -/
theorem irqPinFollowsSources : Obligations.IrqPinFollowsSources := by
  refine ⟨fun s => ?_, fun s => ?_⟩
  · rw [State.irqPin, Bool.and_eq_true, Bool.not_eq_true']
    exact and_congr_right fun _ => BitVec.and_bne_zero_iff _ _
  · obtain ⟨hevent, hchan, hdone, hro⟩ := s.irqPending_bits
    refine ⟨by rw [hevent]; simp, fun n => by rw [hchan, State.chanIrq_iff], by rw [hdone], by rw [hro]⟩

/-! ### The forms written and the lines of the array (R2, R99, R201) -/

theorem busWord_getLsbD (c : Codeword) (i : Nat) : (busWord c).getLsbD i =
    if i < 32 then c.data.getLsbD i else if i < 33 then c.tag else c.check.getLsbD (i - 33) := by
  have h : (busWord c).getLsbD i = (c.check ++ BitVec.ofBool c.tag ++ c.data).getLsbD i := rfl
  simp only [h, BitVec.getLsbD_append]
  by_cases h32 : i < 32
  · simp [h32]
  · by_cases h33 : i < 33
    · simp [show i = 32 by omega]
    · simp [h32, h33, show ¬ i - 32 < 1 by omega, show i - 32 - 1 = i - 33 by omega]

theorem busWord_data (c : Codeword) : (busWord c).extractLsb' 0 32 = c.data :=
  BitVec.eq_of_getLsbD_eq fun i hi => by rw [BitVec.getLsbD_extractLsb', busWord_getLsbD]; simp [hi]

theorem busWord_check (c : Codeword) : (busWord c).extractLsb' 33 7 = c.check :=
  BitVec.eq_of_getLsbD_eq fun i hi => by
    rw [BitVec.getLsbD_extractLsb', busWord_getLsbD]
    simp [hi, show ¬ 33 + i < 32 by omega]

/-- Settles O19. -/
theorem writtenFormsDecode : Obligations.WrittenFormsDecode := by
  refine ⟨decodeWord_fresh, decodeWord_poisoned, ?_, ?_, fun a => rfl, fun a c => ?_, fun s => ⟨?_, fun x y h => ?_⟩⟩
  · rw [sideBits, freshWord, encode_zero]
    rfl
  · rw [sideBits, poisonedWord, encode_zero]
    rfl
  · exact ⟨busWord c, rfl, busWord_data c, busWord_getLsbD c 32, busWord_check c⟩
  · exact s.arrayPins_idle
  · rw [State.arrayLines, h]
    rfl

end Sys2Proof.Machine

namespace Sys2Proof.Machine

/-! ### COMMAND writes refused or undefined (R175, R197) -/

theorem commandOf_ne_softReset {v : Half} (h : v ≠ 0x7E) : commandOf v ≠ some .softReset := by
  unfold commandOf
  repeat' split
  all_goals simp_all

theorem commandOf_of_not_mem {v : Half} (h : v ∉ commandCodes) : commandOf v = none := by
  simp only [commandCodes, List.mem_cons, List.not_mem_nil, or_false, not_or] at h
  obtain ⟨h1, h2, h3, h4, h5, h6, h7, h8⟩ := h
  simp only [commandOf, if_neg h1, if_neg h2, if_neg h3, if_neg h4, if_neg h5, if_neg h6, if_neg h7, if_neg h8]

theorem State.refuseCommand_idle {s : State} (h : s.cmd.running = none) (v : Half) : s.refuseCommand v =
    { s with cmd := { s.cmd with refused := true, field := v.extractLsb' 0 8, result := .notReady } } := by
  simp only [State.refuseCommand, h]

theorem State.refuseCommand_busy {s : State} (h : s.cmd.running.isSome = true) (v : Half) :
    s.refuseCommand v = { s with cmd := { s.cmd with refused := true } } := by
  obtain ⟨r, hr⟩ := Option.isSome_iff_exists.1 h
  simp only [State.refuseCommand, hr]

theorem State.writeCommand_refused {s : State} {v : Half} (h : s.commandRefused (commandOf v) = true) :
    s.writeCommand v = s.refuseCommand v := if_pos h

/-- Settles O34. -/
theorem commandRefused : Obligations.CommandRefused := by
  refine ⟨fun s v => ⟨rfl, rfl, rfl, rfl, rfl, rfl, rfl, rfl, rfl⟩, fun s v hfree => ?_⟩
  have hexec : exec (.undefinedCommand v) s = .next (s.latched.writeCommand v) :=
    congrArg Host.Outcome.next (State.hostWrite_free hfree _)
  refine ⟨fun hidle hstate => hexec.trans (congrArg _ ?_), fun hbusy hcause => hexec.trans (congrArg _ ?_)⟩
  · have hrefused : s.latched.commandRefused (commandOf v) = true := by
      rcases hstate with h | h <;> simp [State.commandRefused, h, hidle]
    exact (State.writeCommand_refused hrefused).trans (State.refuseCommand_idle (s := s.latched) hidle v)
  · have hrefused : s.latched.commandRefused (commandOf v) = true := by
      rcases hcause with h | h
      · simp [State.commandRefused, h]
      · simp [State.commandRefused, hbusy, commandOf_ne_softReset h]
    exact (State.writeCommand_refused hrefused).trans (State.refuseCommand_busy (s := s.latched) hbusy v)

section
variable {s : State} (h : s.commandFree)
include h

theorem exec_undefinedCommand_taken (v : Half) :
    exec (.undefinedCommand v) s = .next ((s.latched.openCommand v).runCommand (commandOf v)) :=
  congrArg Host.Outcome.next (State.hostWrite_writeCommand_of_commandFree h v)

theorem exec_format_taken : exec .format s = .next (s.latched.openCommand 0x21).takeFormat :=
  exec_undefinedCommand_taken h 0x21

theorem exec_remount_taken : exec .remount s = .next (s.latched.openCommand 0x22).takeRemount :=
  exec_undefinedCommand_taken h 0x22

theorem exec_commit_taken : exec .commit s = .next (s.latched.openCommand 0x31).takeCommit :=
  exec_undefinedCommand_taken h 0x31

theorem exec_spareBlock_taken : exec .spareBlock s = .next (s.latched.openCommand 0x41).takeSpareBlock :=
  exec_undefinedCommand_taken h 0x41

theorem exec_cancelSpare_taken : exec .cancelSpare s = .next (s.latched.openCommand 0x42).takeCancelSpare :=
  exec_undefinedCommand_taken h 0x42

theorem exec_scrubRange_taken : exec .scrubRange s = .next (s.latched.openCommand 0x51).takeScrubRange :=
  exec_undefinedCommand_taken h 0x51

end

/-- A command whose rule is to complete at once. -/
theorem exec_doneAtOnce {s t : State} {i : Instr} {v : Half} {code : BitVec 8} {r : Result} (hi : exec i s = .next t)
    (ht : t = (s.latched.openCommand v).complete r) (hcode : v.extractLsb' 0 8 = code) :
    exec i s = .next (s.doneAtOnce code r) := by
  rw [hi, ht, State.openCommand_complete, hcode]

theorem State.takeCommit_notReady {s : State} (h : s.dev.state ≠ .ready) : s.takeCommit = s.complete .notReady :=
  if_pos h

theorem State.takeSpareBlock_notReady {s : State} (h : s.dev.state ≠ .ready) :
    s.takeSpareBlock = s.complete .notReady := if_pos h

theorem State.takeCancelSpare_notReady {s : State} (h : s.dev.state ≠ .ready) :
    s.takeCancelSpare = s.complete .notReady := if_pos h

theorem State.takeScrubRange_notReady {s : State} (h : s.dev.state ≠ .ready) :
    s.takeScrubRange = s.complete .notReady := if_pos h

theorem State.takeFormat_notMountable {s : State} (h : s.mountable = false) : s.takeFormat = s.complete .notReady := by
  simp [State.takeFormat, h]

theorem State.takeRemount_notMountable {s : State} (h : s.mountable = false) :
    s.takeRemount = s.complete .notReady := by
  simp [State.takeRemount, h]

theorem State.not_mountable_of_formatting {s : State} (h : s.dev.state = .formatting) : s.mountable = false := by
  simp [State.mountable, h]

/-- Settles O35. -/
theorem completesAtOnce : Obligations.CompletesAtOnce := by
  refine ⟨fun s v hfree hv => ?_, fun s hfree => ⟨fun hstate => ⟨?_, ?_, ?_, ?_, ?_⟩, fun hstate => ⟨?_, ?_⟩⟩⟩
  · refine exec_doneAtOnce (v := v) (exec_undefinedCommand_taken hfree v) ?_ rfl
    rw [commandOf_of_not_mem hv]
    rfl
  · exact exec_doneAtOnce (exec_commit_taken hfree)
      (State.takeCommit_notReady (s := s.latched.openCommand 0x31) hstate) rfl
  · exact exec_doneAtOnce (exec_spareBlock_taken hfree)
      (State.takeSpareBlock_notReady (s := s.latched.openCommand 0x41) hstate) rfl
  · exact exec_doneAtOnce (exec_cancelSpare_taken hfree)
      (State.takeCancelSpare_notReady (s := s.latched.openCommand 0x42) hstate) rfl
  · exact exec_doneAtOnce (exec_scrubRange_taken hfree)
      (State.takeScrubRange_notReady (s := s.latched.openCommand 0x51) hstate) rfl
  · exact exec_clearFaults_of_not_ready hfree hstate
  · exact exec_doneAtOnce (exec_format_taken hfree) (State.takeFormat_notMountable
      (State.not_mountable_of_formatting (s := s.latched.openCommand 0x21) hstate)) rfl
  · exact exec_doneAtOnce (exec_remount_taken hfree) (State.takeRemount_notMountable
      (State.not_mountable_of_formatting (s := s.latched.openCommand 0x22) hstate)) rfl

/-! ### FORMAT and REMOUNT (R177, R178, R182) -/

theorem State.mountable_of {s : State} (h : s.dev.state = .unformatted ∨ s.dev.state = .foreign ∨ s.dev.state = .ready) :
    s.mountable = true := by
  rcases h with h | h | h <;> simp [State.mountable, h]

theorem State.allClosed_iff (s : State) : s.allClosed = true ↔ ∀ n, (s.chan n).state = .closed := by
  simp only [State.allClosed, List.all_eq_true, beq_iff_eq]
  constructor
  · intro h n
    exact h _ (Vector.mem_toList_iff.2 (Vector.getElem_mem n.isLt))
  · intro h c hc
    obtain ⟨i, hi, rfl⟩ := Vector.mem_iff_getElem.1 (Vector.mem_toList_iff.1 hc)
    exact h ⟨i, hi⟩

theorem State.quiet_iff (s : State) :
    s.quiet = true ↔ (∀ n, (s.chan n).state = .closed) ∧ s.mig.flight = none ∧ s.dir.state = .idle := by
  simp [State.quiet, State.allClosed_iff, and_assoc]

theorem State.not_quiet_of {s : State}
    (h : (∃ n, (s.chan n).state ≠ .closed) ∨ s.mig.flight.isSome = true ∨ s.dir.state ≠ .idle) : s.quiet = false := by
  rw [← Bool.not_eq_true, State.quiet_iff]
  rintro ⟨hclosed, hidle, hdir⟩
  rcases h with ⟨n, hn⟩ | hm | hd
  · exact hn (hclosed n)
  · simp [hidle] at hm
  · exact hd hdir

section
variable {s : State} (hm : s.mountable = true)
include hm

theorem State.takeFormat_badArg (harg : 32 < s.cmd.arg0.toNat) : s.takeFormat = s.complete .badArg := by
  simp [State.takeFormat, hm, harg]

theorem State.takeFormat_active (harg : s.cmd.arg0.toNat ≤ 32) (hq : s.quiet = false) :
    s.takeFormat = s.complete .active := by
  simp [State.takeFormat, hm, harg, hq]

theorem State.takeFormat_taken (harg : s.cmd.arg0.toNat ≤ 32) (hq : s.quiet = true) :
    s.takeFormat = (s.enterFormatting s.cmd.arg0.toNat).begin (.format s.cmd.arg0) := by
  simp [State.takeFormat, hm, harg, hq]

theorem State.takeRemount_active (hq : s.quiet = false) : s.takeRemount = s.complete .active := by
  simp [State.takeRemount, hm, hq]

theorem State.takeRemount_taken (hq : s.quiet = true) : s.takeRemount =
    (({ s with dev := { s.dev with dirReadonly := false } } : State).startMount).begin .remount := by
  simp [State.takeRemount, hm, hq]

end

/-- Settles O36: the checks of R177 in order, then the entry of R178. -/
theorem formatByChecks : Obligations.FormatByChecks := by
  intro s hfree hstate
  have hm : (s.latched.openCommand 0x21).mountable = true := State.mountable_of hstate
  refine ⟨fun harg => ?_, fun harg hactive => ?_, fun harg hclosed hmig hdir => ?_⟩
  · exact exec_doneAtOnce (exec_format_taken hfree) (State.takeFormat_badArg hm harg) rfl
  · exact exec_doneAtOnce (exec_format_taken hfree) (State.takeFormat_active hm harg
      (State.not_quiet_of (s := s.latched.openCommand 0x21) hactive)) rfl
  · exact (exec_format_taken hfree).trans (congrArg Host.Outcome.next (State.takeFormat_taken hm harg
      ((State.quiet_iff (s.latched.openCommand 0x21)).2 ⟨hclosed, hmig, hdir⟩)))

/-- Settles O37. -/
theorem remountByChecks : Obligations.RemountByChecks := by
  intro s hfree hstate
  have hm : (s.latched.openCommand 0x22).mountable = true := State.mountable_of hstate
  refine ⟨fun hactive => ?_, fun hclosed hmig hdir => ?_⟩
  · exact exec_doneAtOnce (exec_remount_taken hfree) (State.takeRemount_active hm
      (State.not_quiet_of (s := s.latched.openCommand 0x22) hactive)) rfl
  · exact (exec_remount_taken hfree).trans (congrArg Host.Outcome.next (State.takeRemount_taken hm
      ((State.quiet_iff (s.latched.openCommand 0x22)).2 ⟨hclosed, hmig, hdir⟩)))

end Sys2Proof.Machine

namespace Sys2Proof.Machine

/-! ### SCRUB_RANGE (R115, R176, R186) -/

theorem blockOf_wordAddr (b : Block) (o : Offset) : blockOf (wordAddr b o) = b := by
  refine BitVec.eq_of_getLsbD_eq fun i hi => ?_
  rw [blockOf, BitVec.getLsbD_extractLsb', wordAddr, BitVec.getLsbD_append]
  simp [hi]

theorem offsetOf_wordAddr (b : Block) (o : Offset) : offsetOf (wordAddr b o) = o := by
  refine BitVec.eq_of_getLsbD_eq fun i hi => ?_
  rw [offsetOf, BitVec.getLsbD_extractLsb', wordAddr, BitVec.getLsbD_append]
  simp [hi]

theorem argBlock_eq {v : Half} {b : Block} (h : b.toNat = v.toNat) : argBlock v = b := by
  have hb := b.isLt
  refine BitVec.eq_of_toNat_eq ?_
  rw [argBlock, BitVec.extractLsb'_toNat, Nat.shiftRight_zero, ← h, Nat.mod_eq_of_lt hb]

/-- A range run whose next word is visited holds the engine: no block and no slice is passed over. -/
theorem State.scrubSettle_ranging {s : State} {r : RangeRun} (hr : s.scrub.range = some r)
    (hk : s.skipped (blockOf r.cursor) = false) : s.scrubSettle = s := by
  have hblocks (n : Nat) : skipBlocks n s = s := by cases n <;> simp [skipBlocks, hr, hk]
  have hslices (n : Nat) : skipSlices n s = s := by cases n <;> simp [skipSlices, State.normalDue, hr]
  simp [State.scrubSettle, hblocks, hslices]

theorem State.takeScrubRange_badArg {s : State} (hd : s.dev.state = .ready)
    (h : ¬ (s.cmd.arg0.toNat ≤ s.cmd.arg1.toNat ∧ s.cmd.arg1.toNat < s.physBlocks)) :
    s.takeScrubRange = s.complete .badArg := by
  rw [State.takeScrubRange, if_neg (not_not_intro hd), if_pos h]

theorem State.takeScrubRange_taken {s : State} {first last : Block} (hd : s.dev.state = .ready)
    (hf : first.toNat = s.cmd.arg0.toNat) (hl : last.toNat = s.cmd.arg1.toNat) (hle : first ≤ last)
    (hlt : last.toNat < s.physBlocks) (hk : s.skipped first = false) :
    s.takeScrubRange = (s.begin (.scrubRange s.cmd.arg0 s.cmd.arg1)).startRange first last := by
  have hargs : s.cmd.arg0.toNat ≤ s.cmd.arg1.toNat ∧ s.cmd.arg1.toNat < s.physBlocks := by
    rw [← hf, ← hl]
    exact ⟨BitVec.le_def.1 hle, hlt⟩
  rw [State.takeScrubRange, if_neg (not_not_intro hd), if_neg (not_not_intro hargs), argBlock_eq hf, argBlock_eq hl]
  refine State.scrubSettle_ranging (r := ⟨first, last, wordAddr first 0⟩) rfl ?_
  rw [blockOf_wordAddr]
  exact hk

/-- Settles O41. -/
theorem scrubRange : Obligations.ScrubRange := by
  refine ⟨fun s hfree hd => ⟨fun hbad => ?_, fun first last hf hl hle hlt hk _ => ?_⟩, fun s a b hrun hr hd => ?_⟩
  · exact exec_doneAtOnce (exec_scrubRange_taken hfree)
      (State.takeScrubRange_badArg (s := s.latched.openCommand 0x51) hd hbad) rfl
  · exact (exec_scrubRange_taken hfree).trans (congrArg Host.Outcome.next
      (State.takeScrubRange_taken (s := s.latched.openCommand 0x51) hd hf hl hle hlt hk))
  · have hdue : s.dueResult = some .ok := by simp [State.dueResult, hrun, hr, hd]
    refine congrArg Host.Outcome.next ?_
    rw [State.completeIfDue, hdue]
    rfl

/-! ### A commit starts (R43, R44, R49) -/

theorem CommitUnit.known_markInvalid (d : CommitUnit) (c : Copy) : ((d.markInvalid c).known c).valid = false := by
  cases c <;> rfl

theorem CommitUnit.markInvalid_gen (d : CommitUnit) (c : Copy) : (d.markInvalid c).gen = d.gen := by
  cases c <;> rfl

theorem CommitUnit.markInvalid_pendingFlag (d : CommitUnit) (c : Copy) :
    (d.markInvalid c).pendingFlag = d.pendingFlag := by
  cases c <;> rfl

theorem CommitUnit.chooseTarget_eq (d : CommitUnit) : d.chooseTarget =
    if d.copyA.valid = false then .a else if d.copyB.valid = false then .b
    else if d.copyA.gen < d.copyB.gen then .a else .b := by
  unfold CommitUnit.chooseTarget
  cases d.copyA.valid <;> cases d.copyB.valid <;> rfl

/-- The commit unit as a commit starts. -/
def State.startedDir (s : State) : CommitUnit := { s.dir.markInvalid s.dir.chooseTarget with
  state := .writing, attempt := 1, word := 0, closing := false, target := some s.dir.chooseTarget,
  snapshot := some (s.takeSnapshot (s.dir.gen + 1)) }

theorem State.startCommit_started {s : State} (h : s.dir.gen ≠ 0xFFFFFFFF) :
    s.startCommit = { s with dir := s.startedDir } := if_neg h

theorem State.startCommit_atLimit {s : State} (h : s.dir.gen = 0xFFFFFFFF) :
    s.startCommit = s.failCommit (commitRecord .commitFailed none 0) := if_pos h

theorem State.requestCommit_busy {s : State} (h : s.dir.state ≠ .idle) :
    s.requestCommit = { s with dir := { s.dir with pendingFlag := true } } := by
  cases hd : s.dir.state <;> simp_all [State.requestCommit]

theorem State.requestCommit_idle {s : State} (h : s.dir.state = .idle) (hro : s.dev.dirReadonly = false) :
    s.requestCommit = s.startCommit := by
  simp [State.requestCommit, h, hro]

theorem State.requestCommit_readonly {s : State} (h : s.dir.state = .idle) (hro : s.dev.dirReadonly = true) :
    s.requestCommit = s := by
  simp [State.requestCommit, h, hro]

theorem State.startedDir_known (s : State) : (s.startedDir.known s.dir.chooseTarget).valid = false := by
  rw [State.startedDir]
  cases s.dir.chooseTarget <;> rfl

theorem State.startedDir_gen (s : State) : s.startedDir.gen = s.dir.gen := s.dir.markInvalid_gen _

theorem State.startedDir_pendingFlag (s : State) : s.startedDir.pendingFlag = s.dir.pendingFlag :=
  s.dir.markInvalid_pendingFlag _

/-! #### What a snapshot records (R44) -/

theorem State.snapshotEntries_alone {s : State} (h : s.waitingMigration = none) : s.snapshotEntries = s.map.remap := by
  simp only [State.snapshotEntries, h]

theorem State.snapshotSpares_alone {s : State} (h : s.waitingMigration = none) :
    s.map.spares.mapIdx s.snapshotSpare = s.map.spares.map fun st => if st = .allocated then .free else st := by
  have hspare : s.snapshotSpare = fun _ st => if st = .allocated then .free else st := by
    funext k st
    simp only [State.snapshotSpare, h]
  rw [hspare]
  exact List.ext_getElem (by simp) fun i _ _ => by simp

theorem State.waitingMigration_some {s : State} {m : Migration} (h : s.mig.flight = some m)
    (hp : m.phase = .commitWait) : s.waitingMigration = some m := by
  simp [State.waitingMigration, h, hp]

theorem State.entryOf_none {s : State} {b : Block} (h : ∀ e ∈ s.map.remap, e.logical ≠ b) : s.entryOf b = none := by
  simpa [State.entryOf, List.find?_eq_none] using h

theorem State.snapshotEntries_new {s : State} {m : Migration} (h : s.waitingMigration = some m)
    (hnew : ∀ e ∈ s.map.remap, e.logical ≠ m.lam) : s.snapshotEntries = s.map.remap ++ [⟨m.lam, m.spare⟩] := by
  simp [State.snapshotEntries, h, State.entryOf_none hnew]

/-! #### A commit fails with no migration waiting (R48, R49) -/

theorem State.failCommit_alone {s : State} (h : s.waitingMigration = none) (r : EventRecord) : s.failCommit r =
    (({ s.setReadonly.post r with dir := { s.dir with pendingFlag := false } } : State).tellCommitFailure).commitIdle := by
  have hnone : (s.setReadonly.post r).abandonWaiting = s.setReadonly.post r := State.abandonWaiting_of_none h
  rw [State.failCommit, hnone]
  rfl

theorem State.tellCommitFailure_waiting {s : State} {next : Bool} (h : s.cmd.running = some (.commit next)) :
    s.tellCommitFailure = s.complete .dirReadonly := by
  simp only [State.tellCommitFailure, h]

/-! ### COMMIT (R183) -/

/-- The role of a block depends on the map and on P alone. -/
theorem State.roleOf_congr {s t : State} (hmap : t.map = s.map) (hp : t.pCode = s.pCode) (b : Block) :
    t.roleOf b = s.roleOf b := by
  unfold State.roleOf State.entryOf State.logicalBlocks State.spareCount State.physBlocks
  rw [hmap, hp]

theorem State.takeCommit_busy {s : State} (hd : s.dev.state = .ready) (h : s.dir.state ≠ .idle) :
    s.takeCommit = { s.begin (.commit true) with dir := { s.dir with pendingFlag := true } } := by
  have hreq := State.requestCommit_busy (s := s.begin (.commit true)) h
  rw [State.takeCommit, if_neg (not_not_intro hd)]
  cases hs : s.dir.state with
  | idle => exact absurd hs h
  | writing => exact hreq
  | readback => exact hreq

theorem State.takeCommit_idle {s : State} (hd : s.dev.state = .ready) (h : s.dir.state = .idle)
    (hro : s.dev.dirReadonly = false) : s.takeCommit = ((s.begin (.commit false)).startCommit).scrubSettle := by
  have hreq := State.requestCommit_idle (s := s.begin (.commit false)) h hro
  simp only [State.takeCommit, hd, ne_eq, not_true_eq_false, if_false, h, hro, Bool.false_eq_true, hreq]

theorem State.takeCommit_readonly {s : State} (hd : s.dev.state = .ready) (h : s.dir.state = .idle)
    (hro : s.dev.dirReadonly = true) : s.takeCommit = s.complete .dirReadonly := by
  simp only [State.takeCommit, hd, ne_eq, not_true_eq_false, if_false, h, hro, if_true]

/-- What is skipped depends on the map, on P and on a commit in progress. -/
theorem State.skipped_congr {s t : State} (hmap : t.map = s.map) (hp : t.pCode = s.pCode)
    (hd : t.dir.state = s.dir.state) (ht : t.dir.target = s.dir.target) (b : Block) : t.skipped b = s.skipped b := by
  rw [State.skipped, State.skipped, State.roleOf_congr hmap hp, hd, ht]

theorem State.takeCommit_atLimit {s : State} (hd : s.dev.state = .ready) (h : s.dir.state = .idle)
    (hro : s.dev.dirReadonly = false) (hgen : s.dir.gen = 0xFFFFFFFF) (hwait : s.waitingMigration = none)
    (hk : s.skipped s.scrub.block = false) (hr : s.scrub.range = none) : s.takeCommit =
      (({ (s.begin (.commit false)).setReadonly.post (commitRecord .commitFailed none 0) with
        dir := { s.dir with pendingFlag := false } } : State).complete .dirReadonly).commitIdle := by
  rw [State.takeCommit_idle hd h hro, State.startCommit_atLimit (s := s.begin (.commit false)) hgen,
    State.failCommit_alone (s := s.begin (.commit false)) hwait, State.tellCommitFailure_waiting (next := false) rfl]
  refine State.scrubSettle_served ?_ ?_
  · exact hr
  · refine Eq.trans (State.skipped_congr (s := s) ?_ ?_ ?_ ?_ _) hk
    · simp
    · simp
    · simp [h]
    · simp

theorem State.takeCommit_started {s : State} (hd : s.dev.state = .ready) (h : s.dir.state = .idle)
    (hro : s.dev.dirReadonly = false) (hgen : s.dir.gen ≠ 0xFFFFFFFF) (hb : s.scrub.backlog = 0)
    (hr : s.scrub.range = none) :
    s.takeCommit = { s.begin (.commit false) with dir := (s.begin (.commit false)).startedDir } := by
  rw [State.takeCommit_idle hd h hro, State.startCommit_started (s := s.begin (.commit false)) hgen]
  refine State.scrubSettle_spent ?_ ?_
  · exact hr
  · exact hb

/-- Settles O38. -/
theorem commitCommand : Obligations.CommitCommand := by
  refine ⟨fun s hfree hd => ⟨fun hidle hro => ?_, fun hbusy => ?_, fun hidle hro hgen hmig hk hr => ?_⟩,
    fun s hfree hd hidle hro hgen hb hr => ?_⟩
  · exact exec_doneAtOnce (exec_commit_taken hfree)
      (State.takeCommit_readonly (s := s.latched.openCommand 0x31) hd hidle hro) rfl
  · exact (exec_commit_taken hfree).trans (congrArg Host.Outcome.next
      (State.takeCommit_busy (s := s.latched.openCommand 0x31) hd hbusy))
  · have hwait : s.waitingMigration = none := by rw [State.waitingMigration, hmig, Option.filter_none]
    have hk' : (s.latched.openCommand 0x31).skipped s.scrub.block = false :=
      Eq.trans (State.skipped_congr (s := s) (t := s.latched.openCommand 0x31) rfl rfl rfl rfl _) hk
    have taken := State.takeCommit_atLimit (s := s.latched.openCommand 0x31) hd hidle hro hgen hwait hk' hr
    refine ⟨_, (exec_commit_taken hfree).trans (congrArg Host.Outcome.next taken), ?_⟩
    simp [State.setReadonly, State.begin, State.openCommand, commitRecord]
  · let u := (s.latched.openCommand 0x31).begin (.commit false)
    refine ⟨_, _, _, (exec_commit_taken hfree).trans (congrArg Host.Outcome.next
      (State.takeCommit_started (s := s.latched.openCommand 0x31) hd hidle hro hgen hb hr)),
      rfl, rfl, rfl, u.startedDir_gen, rfl, u.startedDir_known, rfl, s.dir.chooseTarget_eq, rfl,
      rfl, fun hwait => ⟨State.snapshotEntries_alone (s := u) hwait, ?_, State.snapshotSpares_alone (s := u) hwait⟩,
      fun m hm hp => ⟨?_, fun hnew => ?_⟩, rfl, rfl, rfl, rfl⟩
    · exact congrArg (Option.map _) hwait
    · exact congrArg (Option.map _) (State.waitingMigration_some (s := u) hm hp)
    · exact State.snapshotEntries_new (s := u) (State.waitingMigration_some (s := u) hm hp) hnew

/-! ### SOFT_RESET (R155, R188, R189) -/

theorem State.softResetMigration_kept {s : State} (h : ∀ m, s.mig.flight = some m → m.phase = .commitWait) :
    s.softResetMigration = { s with mig := { s.mig with queue := [] } } := by
  cases hf : s.mig.flight with
  | none => simp only [State.softResetMigration, hf]
  | some m => simp only [State.softResetMigration, hf, h m hf, if_true]

theorem State.softResetMigration_cut {s : State} {m : Migration} (hm : s.mig.flight = some m)
    (hp : m.phase ≠ .commitWait) (hs : s.map.spares[m.spare]? = some .allocated) :
    s.softResetMigration = { s with
      mig := { s.mig with queue := [], flight := none },
      map := { s.map with spares := s.map.spares.set m.spare .free } } := by
  simp only [State.softResetMigration, hm, if_neg hp, State.release, if_pos hs]
  rfl

/-- R155: the queue is emptied; of the map only spare states change. -/
theorem State.softResetMigration_frame (s : State) : ∃ f sp, s.softResetMigration = { s with
    mig := { s.mig with queue := [], flight := f }, map := { s.map with spares := sp } } := by
  cases hf : s.mig.flight with
  | none => exact ⟨none, s.map.spares, by simp only [State.softResetMigration, hf]⟩
  | some m =>
    by_cases hp : m.phase = .commitWait
    · exact ⟨some m, s.map.spares, by simp only [State.softResetMigration, hf, hp, if_true]⟩
    · by_cases hs : s.map.spares[m.spare]? = some .allocated
      · exact ⟨none, _, State.softResetMigration_cut hf hp hs⟩
      · exact ⟨none, s.map.spares, by simp only [State.softResetMigration, hf, if_neg hp, State.release, if_neg hs]⟩

theorem exec_softReset {s : State} (hfree : s.busFree) (hd : s.dev.state ≠ .fenced)
    (hm : s.dev.state = .mounting → s.cmd.running.isSome = true) :
    exec .softReset s = .next (s.latched.openCommand 0x7E).softReset := by
  have hrefused : s.latched.commandRefused (some .softReset) = false := by
    cases hr : s.cmd.running with
    | none =>
      have : s.dev.state ≠ .mounting := fun h => by simp [hr] at hm; exact hm h
      simp [State.commandRefused, hd, hr, this]
    | some r => simp [State.commandRefused, hd, hr]
  refine congrArg Host.Outcome.next ((State.hostWrite_free hfree _).trans ?_)
  have hcode : commandOf ((commandCode .softReset).setWidth 16) = some .softReset := by decide
  rw [State.writeCommand, hcode, hrefused]
  rfl

theorem State.softReset_alone {s : State} (h : cutsOffMount s.cmd.running = false) :
    s.softReset = s.softResetBlocks.complete .ok := by
  simp [State.softReset, h]

theorem State.softReset_cutsOff {s : State} (h : cutsOffMount s.cmd.running = true) :
    s.softReset = (s.softResetBlocks.complete .ok).startMount := by
  simp [State.softReset, h]

/-- Settles O43. -/
theorem softReset : Obligations.SoftReset := by
  refine ⟨fun s hfree hd hm hcut => ?_, fun s hfree hd hcut => ?_⟩
  · obtain ⟨f, sp, hframe⟩ := State.softResetMigration_frame (s.latched.openCommand 0x7E)
    refine ⟨_, (exec_softReset hfree hd hm).trans (congrArg _ (State.softReset_alone hcut)), fun n => State.reset_chan n,
      ?_, rfl, rfl, rfl, rfl, rfl, ?_, rfl, ?_, ?_, ?_, ?_, ?_, ?_, rfl, fun m hf hp => ?_, fun m hf hp hs => ?_,
      fun hf => ?_⟩
    all_goals simp only [State.complete_port, State.complete_irq, State.complete_cmd, State.complete_mig,
      State.complete_map, State.complete_dir, State.complete_dev, State.complete_array, State.softResetBlocks]
    · rfl
    · rfl
    · rw [hframe]
    · rw [hframe]
      rfl
    · rw [hframe]
      rfl
    · rw [hframe]
      rfl
    · rw [hframe]
      rfl
    · rw [State.softResetMigration_kept (s := s.latched.openCommand 0x7E) fun x hx => by
        cases hf.symm.trans hx
        exact hp]
      exact ⟨hf, rfl⟩
    · rw [State.softResetMigration_cut (s := s.latched.openCommand 0x7E) hf hp hs]
      exact ⟨rfl, rfl⟩
    · rw [State.softResetMigration_kept (s := s.latched.openCommand 0x7E) fun x hx => by cases hf.symm.trans hx]
      exact ⟨hf, rfl⟩
  · obtain ⟨f, sp, hframe⟩ := State.softResetMigration_frame (s.latched.openCommand 0x7E)
    have hnf : s.dev.state ≠ .fenced := by rcases hd with h | h <;> simp [h]
    have hrun : s.cmd.running.isSome = true := by
      cases hr : s.cmd.running with
      | none => simp [hr, cutsOffMount] at hcut
      | some r => rfl
    refine ⟨_, (exec_softReset hfree hnf fun _ => hrun).trans (congrArg _ (State.softReset_cutsOff hcut)),
      ?_, rfl, rfl, rfl, rfl, rfl, rfl, ?_⟩
    all_goals simp only [State.startMount, State.complete_dev, State.complete_array, State.softResetBlocks]
    · rw [hframe]
      rfl
    · rw [hframe]
      rfl

end Sys2Proof.Machine

namespace Sys2Proof.Machine

/-! ### Fields of a register value (R196, R200) -/

/-- A code of the tables of R196, R198 and R200: the place of the value in its table. -/
theorem code_of_table {α β : Type} {l : List α} {code : α → β} {num : Nat → β}
    (htable : ∀ i : Fin l.length, code l[i] = num i) {j : Nat} {x : α} (h : l[j]? = some x) : code x = num j := by
  obtain ⟨hj, rfl⟩ := List.getElem?_eq_some_iff.mp h
  exact htable ⟨j, hj⟩

theorem setWidth_byte (x : BitVec 8) : x.setWidth 16 = 0#8 ++ x := BitVec.setWidth_eq_append (by decide)

theorem setWidth_sevenBits (x : BitVec 7) : x.setWidth 16 = 0#9 ++ x := BitVec.setWidth_eq_append (by decide)

theorem setWidth_block (x : Block) : x.setWidth 16 = 0#4 ++ x := BitVec.setWidth_eq_append (by decide)

/-- R199, R200: the present bit stands above a block. -/
theorem markedBlock (x : Block) : 0x8000 ||| x.setWidth 16 = 1#1 ++ 0#3 ++ x :=
  calc 0x8000 ||| x.setWidth 16 = (1#1 ++ 0#3 ++ 0#12) ||| (0#1 ++ 0#3 ++ x) := congrArg _ (setWidth_block x)
    _ = 1#1 ++ 0#3 ++ x := by simp only [BitVec.or_append, BitVec.or_zero, BitVec.zero_or]

theorem blockField_eq (b : Option Block) : blockField b = BitVec.ofBool b.isSome ++ 0#3 ++ b.getD 0 := by
  cases b with
  | none => rfl
  | some x => exact markedBlock x

theorem EventRecord.head1_eq (r : EventRecord) :
    r.head1 = BitVec.ofBool r.phys.isSome ++ BitVec.ofBool r.offset.isSome ++ 0#2 ++ r.phys.getD 0 := by
  have hmark (b : Bool) : (if b then 0x4000#16 else 0) = 0#1 ++ BitVec.ofBool b ++ 0#2 ++ 0#12 := by
    cases b <;> rfl
  have hzero (b : Bool) : BitVec.ofBool b ++ 0#3 = BitVec.ofBool b ++ 0#1 ++ 0#2 := by
    cases b <;> rfl
  calc r.head1 = (BitVec.ofBool r.phys.isSome ++ 0#1 ++ 0#2 ++ r.phys.getD 0) |||
        (0#1 ++ BitVec.ofBool r.offset.isSome ++ 0#2 ++ 0#12) := by
        rw [EventRecord.head1, blockField_eq, hzero]
        exact congrArg _ (hmark _)
    _ = _ := by simp only [BitVec.or_append, BitVec.or_zero, BitVec.zero_or]

/-! ### A channel's register by its address (R190) -/

theorem chanOf_place (n : Fin 4) (k : Fin 8) : chanOf (BitVec.ofNat 6 (0x10 + 8 * n.val + k.val)) = some n ∧
    (BitVec.ofNat 6 (0x10 + 8 * n.val + k.val)).extractLsb' 0 3 = BitVec.ofNat 3 k.val ∧
    pairedAt (BitVec.ofNat 6 (0x10 + 8 * n.val + k.val)) = none := by
  revert n k
  decide

theorem State.writeRegister_chan (s : State) (n : Fin 4) (k : Fin 8) (v : Half) :
    s.writeRegister (BitVec.ofNat 6 (0x10 + 8 * n.val + k.val)) v = s.writeChanRegister n (BitVec.ofNat 3 k.val) v := by
  obtain ⟨hn, hk, -⟩ := chanOf_place n k
  simp only [State.writeRegister, hn, hk]

theorem State.register_chan (s : State) (n : Fin 4) (k : Fin 8) :
    s.register (BitVec.ofNat 6 (0x10 + 8 * n.val + k.val)) = (s.chan n).register (BitVec.ofNat 3 k.val) := by
  obtain ⟨hn, hk, -⟩ := chanOf_place n k
  simp only [State.register, hn, hk]

/-! ### Register reads (R190) -/

/-- A read of a register that is neither paired nor a data register. -/
theorem exec_registerRead_device {s : State} (h : s.busFree) {a : BitVec 6} (hp : pairedAt a = none)
    (hc : chanOf a = none) :
    exec (.registerRead a) s = .next { s with host := { s.host with latch := none, readData := s.register a } } := by
  have hread : s.busRead a = s.latched.readPlain a := by
    simp only [State.busRead, hp]
    exact State.hostRead_free h _
  refine congrArg Host.Outcome.next (hread.trans ?_)
  simp only [State.readPlain, hc, State.register]
  rfl

theorem exec_registerRead_chan {s : State} (h : s.busFree) (n : Fin 4) (k : Fin 8) (hk : k.val < 6) :
    exec (.registerRead (BitVec.ofNat 6 (0x10 + 8 * n.val + k.val))) s = .next
      { s with host := { s.host with latch := none, readData := (s.chan n).register (BitVec.ofNat 3 k.val) } } := by
  obtain ⟨hn, hplace, hp⟩ := chanOf_place n k
  have hread : s.busRead (BitVec.ofNat 6 (0x10 + 8 * n.val + k.val)) = s.latched.readPlain (BitVec.ofNat 6 (0x10 + 8 * n.val + k.val)) := by
    simp only [State.busRead, hp]
    exact State.hostRead_free h _
  have hplain : s.latched.readPlain (BitVec.ofNat 6 (0x10 + 8 * n.val + k.val)) =
      s.latched.answer (s.latched.register (BitVec.ofNat 6 (0x10 + 8 * n.val + k.val))) := by
    simp only [State.readPlain, hn, hplace]
    match k, hk with
    | 0, _ | 1, _ | 2, _ | 3, _ | 4, _ | 5, _ => rfl
  exact congrArg Host.Outcome.next (hread.trans (hplain.trans (congrArg _ (State.register_chan _ n k))))

/-! ### The fields of a register, from bit 15 down -/

theorem State.deviceState_eq (s : State) : s.deviceState =
    0#6 ++ BitVec.ofBool s.diag.rawEnable ++ BitVec.ofBool s.dev.dirReadonly ++ 0#2 ++ outcomeCode s.dev.outcome ++
      0#1 ++ devCode s.dev.state := by
  simp only [State.deviceState, BitVec.append_assoc, BitVec.cast_eq]

theorem State.resultCode_shownResult (s : State) : resultCode s.cmd.shownResult =
    if s.cmd.running.isSome then 0 else resultCode s.cmd.result := apply_ite _ _ _ _

theorem State.scrubCtrlRead_eq (s : State) : s.scrubCtrlRead = 0#13 ++ BitVec.ofBool s.scrub.passEvent ++
    BitVec.ofBool s.scrub.poisonOnScrub ++ BitVec.ofBool s.scrub.enable := by
  simp only [State.scrubCtrlRead, BitVec.append_assoc, BitVec.cast_eq]

theorem State.scrubStatusRead_eq (s : State) : s.scrubStatusRead = 0#3 ++ BitVec.ofBool s.scrub.range.isSome ++
    s.scrub.urgentLevel ++ 0#3 ++ BitVec.ofBool s.scrub.urgent ++ s.scrub.backlog := by
  simp only [State.scrubStatusRead, BitVec.append_assoc, BitVec.cast_eq]

theorem State.tableSelection_eq (s : State) : (0#3 ++ s.table.index) ++ (0#6 ++ s.table.table) =
    0#3 ++ s.table.index ++ 0#6 ++ s.table.table := by
  simp only [BitVec.append_assoc, BitVec.cast_eq]

theorem Channel.ctrlRead_eq (c : Channel) : c.ctrlRead = 0#7 ++ BitVec.ofBool (decide (c.state ≠ .closed)) ++ 0#2 ++
    BitVec.ofBool (decide (c.policy = .wrap)) ++ BitVec.ofBool (decide (c.step = .down)) ++ widthCode c.width ++
    modeCode c.mode := by
  have hstate : (c.state != .closed) = decide (c.state ≠ .closed) := by cases c.state <;> rfl
  have hpolicy : (c.policy == .wrap) = decide (c.policy = .wrap) := by cases c.policy <;> rfl
  have hstep : (c.step == .down) = decide (c.step = .down) := by cases c.step <;> rfl
  simp only [Channel.ctrlRead, hstate, hpolicy, hstep, BitVec.append_assoc, BitVec.cast_eq]

theorem Channel.statusRead_eq (c : Channel) : c.statusRead = refuseCode c.openRefused ++
    BitVec.ofBool c.openRefused.isSome ++ BitVec.ofBool c.writeIgnored ++ faultKindCode c.faultKind ++
    BitVec.ofNat 3 c.writeQ.length ++ BitVec.ofNat 2 c.readAhead.length ++ chanCode c.state := by
  simp only [Channel.statusRead, BitVec.append_assoc, BitVec.cast_eq]

/-- Settles O48: each register's value, its code fields by the tables. -/
theorem registerReadsShow : Obligations.RegisterReadsShow := by
  intro s hfree
  have shows {a : BitVec 6} {x : Half} (hp : pairedAt a = none := by rfl) (hc : chanOf a = none := by rfl)
      (hx : s.register a = x) :
      exec (.registerRead a) s = .next { s with host := { s.host with latch := none, readData := x } } := by
    subst hx
    exact exec_registerRead_device hfree hp hc
  have showsChan (n : Fin 4) (k : Fin 8) {x : Half} (hk : k.val < 6)
      (hx : (s.chan n).register (BitVec.ofNat 3 k.val) = x) :
      exec (.registerRead (BitVec.ofNat 6 (0x10 + k.val + 8 * n.val))) s =
        .next { s with host := { s.host with latch := none, readData := x } } := by
    subst hx
    rw [Nat.add_right_comm]
    exact exec_registerRead_chan hfree n k hk
  refine ⟨shows (hx := rfl), fun j k hj hk => shows (hx := ?_), shows (hx := setWidth_byte _), shows (hx := rfl),
    shows (hx := rfl), fun k hk => shows (hx := ?_), shows (hx := setWidth_sevenBits _),
    shows (hx := setWidth_sevenBits _), fun h => ?_, fun r rest j k h hj hk => ?_, shows (hx := rfl), shows (hx := rfl),
    shows (hx := s.scrubCtrlRead_eq), shows (hx := rfl), shows (hx := s.scrubStatusRead_eq), shows (hx := rfl),
    shows (hx := rfl), shows (hx := rfl), shows (hx := rfl), shows (hx := s.tableSelection_eq), shows (hx := rfl),
    shows (hx := rfl), shows (hx := rfl), shows (hx := rfl), shows (hx := rfl), shows (hx := rfl), fun n i j k l => ?_⟩
  · rw [← code_of_table (code := devCode) (num := BitVec.ofNat 3) (by decide) hj,
      ← code_of_table (code := outcomeCode) (num := BitVec.ofNat 2) (by decide) hk]
    exact s.deviceState_eq
  · rw [← code_of_table (code := resultCode) (num := BitVec.ofNat 4) (by decide) hk, ← s.resultCode_shownResult]
    rfl
  · have hempty (f : EventRecord → Half) : s.headField f = 0 := by rw [State.headField, h]
    exact ⟨shows (hx := hempty _), shows (hx := hempty _), shows (hx := hempty _), shows (hx := hempty _)⟩
  · have hhead (f : EventRecord → Half) : s.headField f = f r := by rw [State.headField, h]
    have hkind := code_of_table (code := kindCode) (num := fun j => BitVec.ofNat 4 (j + 1)) (by decide) hj
    have hsource := code_of_table (code := sourceCode) (num := BitVec.ofNat 4) (by decide) hk
    rw [← hkind, ← hsource]
    exact ⟨shows (hx := hhead _), shows (hx := (hhead _).trans r.head1_eq),
      shows (hx := (hhead _).trans (blockField_eq _)), shows (hx := hhead _)⟩
  · intro c hi hj hk hl
    rw [← code_of_table (code := modeCode) (num := BitVec.ofNat 2) (by decide) hi,
      ← code_of_table (code := widthCode) (num := BitVec.ofNat 2) (by decide) hj,
      ← code_of_table (code := chanCode) (num := BitVec.ofNat 3) (by decide) hk,
      ← code_of_table (code := faultKindCode) (num := BitVec.ofNat 3) (by decide) hl]
    refine ⟨showsChan n 0 (by decide) c.ctrlRead_eq, fun m hm => ?_, showsChan n 4 (by decide) (setWidth_block _),
      showsChan n 5 (by decide) (setWidth_block _)⟩
    rw [← code_of_table (code := refuseCode) (num := BitVec.ofNat 3) (by decide) hm]
    exact showsChan n 1 (by decide) c.statusRead_eq

/-! ### Register writes (R190) -/

/-- The registers that take nothing: the read-only ones. -/
theorem State.writeRegister_readOnly (s : State) (v : Half) {a : BitVec 6}
    (h : a ∈ ([0x00, 0x01, 0x08, 0x09, 0x0A, 0x0B, 0x0D, 0x0E, 0x0F, 0x33, 0x34, 0x35, 0x37, 0x38, 0x3A, 0x3B, 0x3C, 0x3D,
      0x3E] : List (BitVec 6))) : s.writeRegister a v = s := by
  fin_cases h <;> rfl

theorem State.writeCommandStatus_eq (s : State) (v : Half) : s.writeCommandStatus v =
    { s with cmd := { s.cmd with refused := s.cmd.refused && !v.getLsbD 14 } } := by
  unfold State.writeCommandStatus
  cases v.getLsbD 14 <;> simp

theorem State.writeScrubCtrl_served {s : State} (v : Half) (hr : s.scrub.range = none)
    (hk : s.skipped s.scrub.block = false) : s.writeScrubCtrl v = { s with scrub := { s.scrub with
      enable := v.getLsbD 0, poisonOnScrub := v.getLsbD 1, passEvent := v.getLsbD 2,
      ticks := if v.getLsbD 0 then s.scrub.ticks else 0 } } := State.scrubSettle_served hr hk

theorem urgentLevelTaken_eq (v : Half) : urgentLevelTaken v =
    if v.extractLsb' 8 4 = 0 ∨ v.extractLsb' 8 4 = 1 then 2 else v.extractLsb' 8 4 := by
  have low (l : BitVec 4) : (if l.toNat < 2 then 2 else l) = if l = 0 ∨ l = 1 then 2 else l := by
    revert l
    decide
  exact low _

theorem State.writeScrubStatus_eq (s : State) (v : Half) : s.writeScrubStatus v = { s with scrub := { s.scrub with
    urgentLevel := urgentLevelTaken v
    urgent := Decidable.decide (urgentLevelTaken v ≤ s.scrub.backlog) ||
      (s.scrub.urgent && Decidable.decide (urgentLevelTaken v >>> 1 < s.scrub.backlog)) } } := by
  have flag (l b : BitVec 4) (u : Bool) : (if l ≤ b then true else if b ≤ l >>> 1 then false else u) =
      (Decidable.decide (l ≤ b) || (u && Decidable.decide (l >>> 1 < b))) := by
    by_cases hl : l ≤ b
    · simp [hl]
    · by_cases hc : b ≤ l >>> 1
      · simp [hl, hc, BitVec.not_lt.mpr hc]
      · simp [hl, hc, BitVec.not_le.mp hc]
  simp only [State.writeScrubStatus, flag]

/-- R194: the halves of the address that PTR_LO and PTR_HI show. -/
theorem Channel.register_pointer (c : Channel) : c.register 2 ++ c.register 3 =
    c.shownAddr.extractLsb' 0 16 ++ (0#12 ++ c.shownAddr.extractLsb' 16 4) :=
  congrArg (c.shownAddr.extractLsb' 0 16 ++ ·) (BitVec.setWidth_eq_append (by decide))

/-- Settles O44: each register's own rule, through the write cycle. -/
theorem registerWritesLoad : Obligations.RegisterWritesLoad := by
  refine ⟨fun s v hfree => ?_, fun s v hfree hr hk => ?_, fun s n v hfree => ?_, fun s n v hopen => ?_⟩
  · have write {i : Instr} {f : State → State} (hi : exec i s = .next (s.hostWrite f)) :
        exec i s = .next (f s.latched) := hi.trans (congrArg Host.Outcome.next (State.hostWrite_free hfree f))
    exact ⟨write (f := fun x => x.writeIrqEnable v) rfl,
      (write (f := fun x => x.writeIrqPending v) rfl).trans (congrArg _ (State.writeIrqPending_eq _ v)),
      (write (f := fun x => x.writeCommandStatus v) rfl).trans (congrArg _ (State.writeCommandStatus_eq _ v)),
      write (f := fun x => x.writeScrubPeriod v) rfl, exec_registerWrite_busFree hfree _ v,
      exec_registerWrite_busFree hfree _ v, exec_registerWrite_busFree hfree _ v, exec_registerWrite_busFree hfree _ v,
      fun a ha => (exec_registerWrite_busFree hfree a v).trans (congrArg _ (State.writeRegister_readOnly _ v ha))⟩
  · refine ⟨congrArg Host.Outcome.next ((State.hostWrite_free hfree _).trans ?_), fun l hl =>
      congrArg Host.Outcome.next ((State.hostWrite_free hfree _).trans ?_)⟩
    · exact State.writeScrubCtrl_served (s := s.latched) v hr hk
    · rw [hl, ← urgentLevelTaken_eq]
      exact State.writeScrubStatus_eq s.latched v
  · refine ⟨_, congrArg Host.Outcome.next (State.hostWrite_free hfree _), rfl, ?_⟩
    have hchan : ((s.latched.writeStatus n v).chan n).shownAddr =
        if v.getLsbD 0 then (s.chan n).faultAddr else (s.chan n).pointer := by
      simp only [State.writeStatus, State.setChan_chan_self]
      cases v.getLsbD 0 <;> rfl
    rw [Channel.register_pointer, hchan]
    split <;> rfl
  · intro write
    have hwrite (k : Fin 8) : write k.val = .next (s.latched.writeChanRegister n (BitVec.ofNat 3 k.val) v) :=
      (exec_registerWrite_busFree hopen.1 _ v).trans (congrArg _ (State.writeRegister_chan _ n k v))
    exact ⟨hwrite 3, fun h => ⟨(hwrite 4).trans (congrArg _ (if_pos ⟨h, hopen.2⟩)),
      (hwrite 5).trans (congrArg _ (if_pos ⟨h, hopen.2⟩))⟩, fun h =>
      ⟨(hwrite 4).trans (congrArg _ (if_neg fun k => h k.1)), (hwrite 5).trans (congrArg _ (if_neg fun k => h k.1))⟩⟩

/-! ### The event queue's pop (R164) -/

/-- Settles O45: the three cases of the queue, and the read of EVENT_POP. -/
theorem popTakesTheHead : Obligations.PopTakesTheHead := by
  intro s v hfree
  have hpop : exec (.eventPop v) s = .next { s.latched with events := s.events.pop } :=
    congrArg Host.Outcome.next (State.hostWrite_free hfree _)
  refine ⟨fun h => ?_, fun r rest h hl => ?_, fun r rest h hl => ?_, exec_registerRead_device hfree rfl rfl⟩
  · rw [hpop, Events.pop, h]
  · rw [hpop, Events.pop, h]
    simp only [hl, if_true]
  · rw [hpop, Events.pop, h]
    simp only [hl, if_false, eventsLostRecord]

/-! ### The table port (R195, R200) -/

theorem List.find?_of_nodup_map {α β : Type} [BEq β] [LawfulBEq β] {key : α → β} {l : List α}
    (hn : (l.map key).Nodup) {x : α} (hx : x ∈ l) : l.find? (fun y => key y == key x) = some x := by
  induction l with
  | nil => cases hx
  | cons y l ih =>
    rw [List.map_cons, List.nodup_cons] at hn
    rcases List.mem_cons.mp hx with rfl | hl
    · simp
    · have hne : key y ≠ key x := fun e => hn.1 (e ▸ List.mem_map_of_mem hl)
      rw [List.find?_cons_of_neg (by simpa using hne), ih hn.2 hl]

theorem FaultRecord.words_eq (r : FaultRecord) : r.words =
    { w0 := 1#1 ++ faultStateCode r.state ++ r.phys
      w1 := match r.logical with
        | some b => 1#1 ++ 0#3 ++ b
        | none => 0
      w2 := r.corrected ++ 0#4 ++ r.uncorrectable
      w3 := sourceCode r.lastSource ++ 0#4 ++ r.lastOffset } := by
  have hblock : blockField r.logical = match r.logical with
      | some b => 1#1 ++ 0#3 ++ b
      | none => 0 := by
    cases r.logical with
    | none => rfl
    | some b => exact markedBlock b
  have hcounts : r.corrected ++ (0#4 ++ r.uncorrectable) = r.corrected ++ 0#4 ++ r.uncorrectable := by
    simp only [BitVec.append_assoc, BitVec.cast_eq]
  exact (congrArg₂ (fun x y => ({ r.words with w1 := x, w2 := y } : TableCopy)) hblock hcounts :)

theorem State.tableRecord_fault (s : State) {i : Nat} {x : Option FaultRecord}
    (h : s.faults.slots.toList[i]? = some x) :
    s.tableRecord 0 i = (x.map FaultRecord.words).getD TableCopy.empty := by
  cases x <;> simp [State.tableRecord, h]

theorem State.tableRecord_remap (s : State) (i : Nat) :
    s.tableRecord 1 i = (s.map.remap[i]?.map s.remapWords).getD TableCopy.empty := by
  cases h : s.map.remap[i]? <;> simp [State.tableRecord, h]

theorem State.tableRecord_spare (s : State) (i : Nat) :
    s.tableRecord 2 i = (s.map.spares[i]?.map (s.spareWords i)).getD TableCopy.empty := by
  cases h : s.map.spares[i]? <;> simp [State.tableRecord, h]

theorem State.tableRecord_queue (s : State) (i : Nat) :
    s.tableRecord 3 i = (s.mig.queue[i]?.map MigRequest.words).getD TableCopy.empty := by
  cases h : s.mig.queue[i]? <;> simp [State.tableRecord, h]

/-- Settles O47: the record of each of the four tables. -/
theorem tableSelectCopies : Obligations.TableSelectCopies := by
  intro s v hfree i
  have hrecord {t : BitVec 2} (h : v.extractLsb' 0 2 = t) :
      s.latched.tableRecord (v.extractLsb' 0 2) i = s.tableRecord t i := by rw [h]; rfl
  refine ⟨_, congrArg Host.Outcome.next (State.hostWrite_free hfree _), rfl, rfl, rfl, fun ht => ?_, fun ht => ?_,
    fun ht => ?_, fun ht => ?_⟩
  · refine ⟨fun h => (hrecord ht).trans (s.tableRecord_fault h), fun r j k h hj hk => (hrecord ht).trans ?_⟩
    rw [← code_of_table (code := faultStateCode) (num := BitVec.ofNat 3) (by decide) hj,
      ← code_of_table (code := sourceCode) (num := BitVec.ofNat 4) (by decide) hk]
    exact (s.tableRecord_fault h).trans r.words_eq
  · refine ⟨fun h => (hrecord ht).trans ?_, fun e h => (hrecord ht).trans ?_⟩
    · rw [s.tableRecord_remap, List.getElem?_eq_none h]
      rfl
    · rw [s.tableRecord_remap, h, Option.map_some, Option.getD_some, State.remapWords, markedBlock, setWidth_block]
  · refine ⟨fun h => (hrecord ht).trans ?_, fun st j h hj => ?_⟩
    · rw [s.tableRecord_spare, List.getElem?_eq_none h]
      rfl
    · have hwords : s.latched.tableRecord (v.extractLsb' 0 2) i = s.spareWords i st := by
        rw [hrecord ht, s.tableRecord_spare, h, Option.map_some, Option.getD_some]
      rw [← code_of_table (code := spareCode) (num := BitVec.ofNat 2) (by decide) hj]
      refine ⟨congrArg TableCopy.w0 hwords, congrArg TableCopy.w2 hwords, congrArg TableCopy.w3 hwords,
        fun hne => (congrArg TableCopy.w1 hwords).trans (if_neg hne), fun e he hn hk huse =>
        (congrArg TableCopy.w1 hwords).trans ((if_pos huse).trans ?_)⟩
      rw [← hk, List.find?_of_nodup_map hn he]
      exact markedBlock _
  · refine ⟨fun h => (hrecord ht).trans ?_, fun r h => (hrecord ht).trans ?_⟩
    · rw [s.tableRecord_queue, List.getElem?_eq_none h]
      rfl
    · rw [s.tableRecord_queue, h, Option.map_some, Option.getD_some, MigRequest.words, markedBlock]

end Sys2Proof.Machine

namespace Sys2Proof.Machine

/-! ### Homes and mirrors (R24, R26) -/

theorem State.home_of_entry {s : State} {e : RemapEntry} (he : e ∈ s.map.remap)
    (hn : (s.map.remap.map (·.logical)).Nodup) : s.home e.logical = s.spareBlock e.spare := by
  rw [State.home, State.entryOf, List.find?_of_nodup_map hn he]

theorem State.home_of_no_entry {s : State} {lam : Block} (h : ∀ e ∈ s.map.remap, e.logical ≠ lam) :
    s.home lam = lam := by
  rw [State.home, State.entryOf, List.find?_eq_none.mpr fun e he => by simpa using h e he]

/-- COPY has passed the offset, or the engine is past COPY: a write is mirrored. -/
theorem Migration.lt_mirrorCursor_iff (m : Migration) (o : Offset) :
    o.toNat < m.mirrorCursor ↔ (m.phase = .copy → o.toNat < m.cursor) := by
  have := o.isLt
  unfold Migration.mirrorCursor
  cases m.phase <;> simp <;> omega

/-- Settles O50. -/
theorem writesAreMirroredBehindTheCopy : Obligations.WritesAreMirroredBehindTheCopy := by
  intro s a
  refine ⟨fun h => ?_, fun m h hl => ?_, fun m h hl => ?_, fun e he hn hl => ?_, State.home_of_no_entry⟩
  · simp only [State.primary, State.mirror, h, and_self]
  · simp only [State.primary, State.mirror, h, hl, if_true, true_and, Migration.lt_mirrorCursor_iff]
    refine ⟨fun hp hc => if_neg fun k => Nat.not_lt.mpr hc (k hp), fun hc => if_pos hc⟩
  · simp only [State.primary, State.mirror, h, hl, if_false, false_and, and_self]
  · rw [← hl]
    exact State.home_of_entry he hn

/-! ### The end of a grant with its requester's effect alone (R95) -/

theorem State.completeKind_quiet {s t : State} {g : Grant} {k : Grant → Bool} (hq : s.quietEnd)
    (hg : s.port.grant = some g) (hk : k g = true) (ht : s.clearGrant.completion g = t)
    (hport : t.port.stopped = s.port.stopped) (hscrub : t.scrub = s.scrub) (hmap : t.map = s.map)
    (hp : t.pCode = s.pCode) (hdir : t.dir = s.dir) : s.completeKind k = t := by
  obtain ⟨hs, -, hcmd, hr, hskip⟩ := hq
  subst ht
  rw [State.completeKind_of hg hk]
  refine State.finish_quiet hcmd (hport.trans hs) (hscrub ▸ hr) ?_
  rw [hscrub]
  exact (State.skipped_congr (s := s) hmap hp (by rw [hdir]) (by rw [hdir]) _).trans hskip

/-! ### A fetch at its channel (R63) -/

section
variable {s : State} {n : Fin 4} {e : ReadEntry}

theorem Channel.wantsFetch_iff (c : Channel) :
    c.wantsFetch = true ↔ c.holds = true ∧ c.reads = true ∧ c.state = .opened := by
  simp [Channel.wantsFetch, and_assoc]

/-- The channel with a fetched entry in its read-ahead queue. -/
def Channel.fetched (c : Channel) (e : ReadEntry) : Channel :=
  { c with readAhead := c.readAhead ++ [e], fetchPtr := c.stepped e.addr, holds := false }

theorem State.fetchArrives_wanted (hw : (s.chan n).wantsFetch = true) :
    s.fetchArrives n e = ((s.setChan n ((s.chan n).fetched e)).checkHead n).settleHeld := if_pos hw

theorem State.fetchArrives_unmarked (hw : (s.chan n).wantsFetch = true) (hheld : s.host.held = none)
    (hra : ∀ x ∈ (s.chan n).readAhead, x.mark = none) (he : e.mark = none) :
    s.fetchArrives n e = s.setChan n ((s.chan n).fetched e) := by
  have hall : ∀ x ∈ ((s.setChan n ((s.chan n).fetched e)).chan n).readAhead, x.mark = none := by
    simp only [State.setChan_chan_self, Channel.fetched, List.mem_append, List.mem_singleton]
    rintro x (hx | rfl)
    · exact hra x hx
    · exact he
  rw [State.fetchArrives_wanted hw, State.checkHead_unmarked hall,
    State.settleHeld_none (s := s.setChan n ((s.chan n).fetched e)) hheld]

/-- R70: a read of DATA_LO held for this entry ends with its low half. -/
theorem State.fetchArrives_held_low {k : Nat} (hw : (s.chan n).wantsFetch = true) (hdev : s.dev.state ≠ .fenced)
    (hheld : s.host.held = some ⟨n, false, none, k⟩) (hra : (s.chan n).readAhead = []) (he : e.mark = none)
    (hside : e.side = none) : s.fetchArrives n e = ({ s with
      host := { s.host with held := none, readData := e.data.extractLsb' 0 16 } } : State).setChan n
        ((s.chan n).fetched e) := by
  have hqueue : ((s.setChan n ((s.chan n).fetched e)).chan n).readAhead = [e] := by simp [Channel.fetched, hra]
  have hopen : ((s.setChan n ((s.chan n).fetched e)).chan n).state = .opened := by
    rw [State.setChan_chan_self]
    exact ((Channel.wantsFetch_iff _).mp hw).2.2
  rw [State.fetchArrives_wanted hw, State.checkHead_unmarked (by rw [hqueue]; simpa using he),
    State.settleHeld_read_head (s := s.setChan n ((s.chan n).fetched e)) hheld hdev hopen rfl hqueue,
    State.deliver_low, hside]
  rfl

/-- R63, R64: a marked word that becomes the head puts the channel in FAULT. -/
theorem State.fetchArrives_marked {m : ReadMark} (hw : (s.chan n).wantsFetch = true) (hheld : s.host.held = none)
    (hra : (s.chan n).readAhead = []) (he : e.mark = some m) :
    s.fetchArrives n e = (s.setChan n (((s.chan n).fetched e).fault (markKind m) (s.chan n).pointer)).post
      (channelRecord n m e.phys (s.chan n).pointer 0) := by
  have hqueue : ((s.setChan n ((s.chan n).fetched e)).chan n).readAhead = [e] := by simp [Channel.fetched, hra]
  have hopen : ((s.setChan n ((s.chan n).fetched e)).chan n).state = .opened := by
    rw [State.setChan_chan_self]
    exact ((Channel.wantsFetch_iff _).mp hw).2.2
  rw [State.fetchArrives_wanted hw, State.checkHead_marked hopen hqueue he, State.setChan_chan_self, State.setChan_setChan]
  exact State.settleHeld_none hheld

/-- A word read CLEAN arrives as it was stored. -/
theorem State.fetchDone_clean {l p : Addr} {d : Word} (h : s.cell p = freshWord d) : s.fetchDone n l p =
    (s.noteRead p).fetchArrives n
      { addr := l, data := d, side := none, mark := none, phys := some (blockOf p) } := by
  simp only [State.fetchDone, h, decodeWord_fresh]
  rfl

theorem State.fetchDone_poisoned {l p : Addr} (h : s.cell p = poisonedWord) : s.fetchDone n l p =
    (s.noteRead p).fetchArrives n
      { addr := l, data := 0, side := none, mark := some .poisoned, phys := some (blockOf p) } := by
  simp only [State.fetchDone, h, decodeWord_poisoned]
  rfl

end

/-- Settles O51: the four fetches, each through the channel's part of the completion. -/
theorem fetchDelivers : Obligations.FetchDelivers := by
  intro s n l p d hq hw c entry read
  have hdev := hq.2.1
  have finish {g : Grant} {t : State} (hg : s.port.grant = some g) (hk : Grant.isFetch g = true)
      (ht : s.clearGrant.completion g = t) (h : t.port.stopped = s.port.stopped ∧ t.scrub = s.scrub ∧ t.map = s.map ∧
        t.pCode = s.pCode ∧ t.dir = s.dir) : exec .fetchComplete s = .next t :=
    congrArg _ (State.completeKind_quiet hq hg hk ht h.1 h.2.1 h.2.2.1 h.2.2.2.1 h.2.2.2.2)
  refine ⟨fun hg hcell hheld hra => ?_, fun hg hcell hra k hheld => ?_, fun hg hcell hheld hra => ?_,
    fun hg hheld hra => ?_⟩
  · exact finish hg rfl ((State.fetchDone_clean (s := s.clearGrant) hcell).trans (State.fetchArrives_unmarked (s := read) hw hheld hra rfl))
      ⟨rfl, rfl, rfl, rfl, rfl⟩
  · refine (finish hg rfl ((State.fetchDone_clean (s := s.clearGrant) hcell).trans
      (State.fetchArrives_held_low (s := read) hw hdev hheld hra rfl rfl)) ⟨rfl, rfl, rfl, rfl, rfl⟩).trans ?_
    rw [Channel.fetched, show (read.chan n).readAhead = [] from hra]
    rfl
  · refine (finish hg rfl ((State.fetchDone_poisoned (s := s.clearGrant) hcell).trans (State.fetchArrives_marked (s := read) hw hheld hra rfl))
      ⟨rfl, rfl, rfl, rfl, rfl⟩).trans ?_
    rw [Channel.fetched, show (read.chan n).readAhead = [] from hra]
    rfl
  · exact finish hg rfl (State.fetchArrives_unmarked (s := read) hw hheld hra rfl) ⟨rfl, rfl, rfl, rfl, rfl⟩

/-! ### The head of a write queue (R73, R74) -/

/-- The channel without the head of its write queue; the last entry of a DRAINING channel closes it. -/
def Channel.popped (c : Channel) : Channel :=
  { c with
    writeQ := c.writeQ.tail, holds := false
    state := if c.state = .draining ∧ c.writeQ.tail = [] then .closed else c.state }

section
variable {s : State} {n : Fin 4}

theorem State.popEntry_drained (s : State) (n : Fin 4) : (s.popEntry n).drained n = s.setChan n (s.chan n).popped := by
  simp only [State.drained, State.popEntry, State.setChan_chan_self, State.setChan_setChan, Channel.popped]
  split <;> rfl

theorem State.entryLeaves_held (hh : (s.chan n).holds = true) (hheld : s.host.held = none) :
    s.entryLeaves n = s.setChan n (s.chan n).popped := by
  rw [State.entryLeaves, if_pos hh, State.popEntry_drained]
  exact State.settleHeld_none hheld

/-- R74: a refused merge. -/
theorem State.mergeRefused_held (hh : (s.chan n).holds = true) (hheld : s.host.held = none) (a : Addr) (phys : Block)
    (m : ReadMark) : s.mergeRefused n a phys m = (s.setChan n
      (if (s.chan n).state = .opened ∨ (s.chan n).state = .ended then (s.chan n).popped.fault .mergeRefused a
      else (s.chan n).popped)).post (channelRecord n m (some phys) a 1) := by
  have hchan : (s.popEntry n).chan n = { s.chan n with writeQ := (s.chan n).writeQ.tail, holds := false } :=
    s.setChan_chan_self n _
  by_cases hc : (s.chan n).state = .opened ∨ (s.chan n).state = .ended
  · simp only [State.mergeRefused, if_pos hh, hchan, if_pos hc]
    rw [State.popEntry, State.setChan_setChan]
    exact State.settleHeld_none hheld
  · simp only [State.mergeRefused, if_pos hh, hchan, if_neg hc, State.popEntry_drained]
    exact State.settleHeld_none hheld

/-! ### The mark of a mirrored write (R93, R146) -/

theorem State.mirrorMark_none (s : State) : s.mirrorMark none = s := rfl

theorem State.mirrorMark_other {mi : Mirror} (h : ∀ m, s.mig.flight = some m → m.ident ≠ mi.attempt) :
    s.mirrorMark (some mi) = s := by
  unfold State.mirrorMark
  cases hf : s.mig.flight with
  | none => rfl
  | some m => exact if_neg (h m hf)

theorem State.mirrorMark_same {mi : Mirror} {m : Migration} (hm : s.mig.flight = some m) (h : m.ident = mi.attempt) :
    s.mirrorMark (some mi) = { s with mig := { s.mig with flight := some { m with
      poison := m.poison &&& ~~~(1#256 <<< (offsetOf mi.addr).toNat) } } } := by
  simp only [State.mirrorMark, hm, h, if_true]

/-! ### Merges (R8, R9, R97) -/

theorem mergedData_eq (d : Word) (high : Bool) (v : Half) : mergedData d high v =
    if high then v ++ d.extractLsb' 0 16 else d.extractLsb' 16 16 ++ v := rfl

theorem State.mergeDone_clean {l p : Addr} {mi : Option Mirror} {high : Bool} {v : Half} {d : Word}
    (h : s.cell p = freshWord d) : s.mergeDone n l p mi high v =
    (((((s.noteRead p).writeCell p (freshWord (mergedData d high v))).writeMirror mi
      (freshWord (mergedData d high v))).mirrorMark mi).entryLeaves n) := by
  simp only [State.mergeDone, h, decodeWord_fresh]
  rfl

theorem State.mergeDone_poisoned {l p : Addr} {mi : Option Mirror} {high : Bool} {v : Half}
    (h : s.cell p = poisonedWord) : s.mergeDone n l p mi high v =
    (s.noteRead p).mergeRefused n l (blockOf p) .poisoned := by
  simp only [State.mergeDone, h, decodeWord_poisoned]
  rfl

end

/-- Settles O52: each write grant, through the channel's part of the completion. -/
theorem writesLand : Obligations.WritesLand := by
  intro s n p c hq hheld hh ch popped landed mirrored cleared merged
  have finish {k : Grant → Bool} {g : Grant} {t : State} (hg : s.port.grant = some g) (hk : k g = true)
      (ht : s.clearGrant.completion g = t) (h : t.port.stopped = s.port.stopped ∧ t.scrub = s.scrub ∧ t.map = s.map ∧
        t.pCode = s.pCode ∧ t.dir = s.dir) : s.completeKind k = t :=
    State.completeKind_quiet hq hg hk ht h.1 h.2.1 h.2.2.1 h.2.2.2.1 h.2.2.2.2
  have hclear : s.clearGrant = s.granted [] := by simp [State.clearGrant]
  have hone (l : List ArrayAccess) (x : Codeword) :
      ((s.granted l).writeCell p x).entryLeaves n = landed (l ++ [.write (s.maOf p) x]) x := by
    refine (State.entryLeaves_held (s := (s.granted l).writeCell p x) hh hheld).trans ?_
    simp only [State.writeCell, List.append_assoc, landed]
    rfl
  have hpair (l : List ArrayAccess) (mi : Mirror) (x : Codeword) :
      (((s.granted l).writeCell p x).writeCell mi.addr x).setChan n popped = mirrored l mi x := by
    simp only [State.writeCell, List.append_assoc, mirrored]
    rfl
  have hother (l : List ArrayAccess) (mi : Mirror) (x : Codeword)
      (hm : ∀ m, s.mig.flight = some m → m.ident ≠ mi.attempt) :
      ((((s.granted l).writeCell p x).writeMirror (some mi) x).mirrorMark (some mi)).entryLeaves n =
        mirrored l mi x := by
    refine Eq.trans (congrArg (fun y => State.entryLeaves y n) (State.mirrorMark_other hm)) ?_
    exact (State.entryLeaves_held (s := ((s.granted l).writeCell p x).writeCell mi.addr x) hh hheld).trans
      (hpair l mi x)
  have hsame (l : List ArrayAccess) (mi : Mirror) (x : Codeword) (m : Migration) (hf : s.mig.flight = some m)
      (hm : m.ident = mi.attempt) :
      ((((s.granted l).writeCell p x).writeMirror (some mi) x).mirrorMark (some mi)).entryLeaves n =
        cleared (mirrored l mi x) m mi := by
    rw [State.mirrorMark_same (s := ((s.granted l).writeCell p x).writeMirror (some mi) x) hf hm]
    refine (State.entryLeaves_held (s := cleared (((s.granted l).writeCell p x).writeCell mi.addr x) m mi) hh
      hheld).trans ?_
    exact congrArg (fun t => cleared t m mi) (hpair l mi x)
  refine ⟨fun hg => congrArg Host.Outcome.next ?_, fun hg => congrArg Host.Outcome.next ?_,
    fun mi hg => ⟨fun hm => congrArg Host.Outcome.next ?_, fun m hf hm => congrArg Host.Outcome.next ?_⟩,
    fun l h v d hg hcell => congrArg Host.Outcome.next ?_, fun l mi h v d hg hcell =>
    ⟨fun hm => congrArg Host.Outcome.next ?_, fun m hf hm => congrArg Host.Outcome.next ?_⟩,
    fun l mi h v hg hcell => congrArg Host.Outcome.next ?_⟩
  · exact finish hg rfl (hclear ▸ hone [] c) ⟨rfl, rfl, rfl, rfl, rfl⟩
  · exact finish hg rfl (hclear ▸ hone [] c) ⟨rfl, rfl, rfl, rfl, rfl⟩
  · exact finish hg rfl (hclear ▸ hother [] mi c hm) ⟨rfl, rfl, rfl, rfl, rfl⟩
  · exact finish hg rfl (hclear ▸ hsame [] mi c m hf hm) ⟨rfl, rfl, rfl, rfl, rfl⟩
  · exact finish hg rfl ((State.mergeDone_clean (s := s.clearGrant) hcell).trans
      (hone [.read (s.maOf p)] (merged h v d))) ⟨rfl, rfl, rfl, rfl, rfl⟩
  · exact finish hg rfl ((State.mergeDone_clean (s := s.clearGrant) hcell).trans
      (hother [.read (s.maOf p)] mi (merged h v d) hm)) ⟨rfl, rfl, rfl, rfl, rfl⟩
  · exact finish hg rfl ((State.mergeDone_clean (s := s.clearGrant) hcell).trans
      (hsame [.read (s.maOf p)] mi (merged h v d) m hf hm)) ⟨rfl, rfl, rfl, rfl, rfl⟩
  · exact finish hg rfl ((State.mergeDone_poisoned (s := s.clearGrant) hcell).trans
      (State.mergeRefused_held (s := s.clearGrant.noteRead p) hh hheld l (blockOf p) .poisoned))
      ⟨rfl, rfl, rfl, rfl, rfl⟩

end Sys2Proof.Machine

namespace Sys2Proof.Machine

/-! ### The arbiter's decision (R90 to R92) -/

theorem agingAfter_kept (present : Bool) (aging : Nat) {k : GrantClass} (h : k ≠ .host) (h' : k ≠ .migrate) :
    agingAfter k present aging = if present then aging else 0 := by
  cases present with
  | false => rfl
  | true =>
    cases k with
    | host => exact absurd rfl h
    | migrate => exact absurd rfl h'
    | exclusive | commit | scrubUrgent | scrubIdle => rfl

section
variable {s : State}

theorem State.mayDecide_iff : s.mayDecide = true ↔
    s.port.grant = none ∧ s.port.stopped = false ∧ s.dev.inReset = false ∧ s.dev.state ≠ .fenced := by
  simp [State.mayDecide, and_assoc]

theorem State.decide_grants {k : GrantClass} {g : Grant} (h : s.mayDecide = true) (hk : s.classChoice = some k)
    (hg : s.grantOf k = some g) : s.decide = { s.markHeld k with
      port := { s.port with rr := s.rrAfter k, aging := agingAfter k s.migRequests s.port.aging,
                            grant := some g, cls := some k, accesses := [] } } := by
  simp only [State.decide, h, if_true, hk, hg]

theorem State.decide_idle (hk : s.classChoice = none) : s.decide = s := by
  simp only [State.decide, hk]
  split <;> rfl

/-- R90: a class other than HOST and MIGRATE leaves the round-robin pointer and, with a migration request present, the
aging count. -/
theorem State.decide_kept {k : GrantClass} {g : Grant} (h : s.mayDecide = true) (hk : s.classChoice = some k)
    (hg : s.grantOf k = some g) (hhost : k ≠ .host) (hmig : k ≠ .migrate) : s.decide = { s.markHeld k with
      port := { s.port with grant := some g, cls := some k, accesses := [],
                            aging := if s.migRequests then s.port.aging else 0 } } := by
  rw [State.decide_grants h hk hg, agingAfter_kept _ _ hhost hmig, State.rrAfter, if_neg hhost]

/-! ### Which class is present (R89, R90) -/

theorem State.mountRequests_iff : s.mountRequests = true ↔
    s.dev.state = .mounting ∧ s.dev.inReset = false ∧ s.mount.running = true := by
  simp [State.mountRequests, and_assoc]

theorem State.classChoice_exclusive (h : (s.mountRequests || s.fillerRequests) = true) :
    s.classChoice = some .exclusive := if_pos h

theorem State.no_exclusive (hm : s.dev.state ≠ .mounting) (hf : s.dev.state ≠ .formatting) :
    (s.mountRequests || s.fillerRequests) = false := by
  simp [State.mountRequests, State.fillerRequests, hm, hf]

theorem State.classChoice_commit (hd : s.dev.state = .ready) (h : s.dir.state ≠ .idle) :
    s.classChoice = some .commit := by
  have hx := State.no_exclusive (s := s) (by simp [hd]) (by simp [hd])
  simp [State.classChoice, hx, State.commitRequests, hd, h]

/-- No request of the classes EXCLUSIVE and COMMIT. -/
abbrev State.noCommit (s : State) : Prop :=
  s.dev.state = .ready ∧ s.dir.state = .idle ∨ s.dev.state = .unformatted ∨ s.dev.state = .foreign

/-- The scrub engine's request, if any, is not at SCRUB_URGENT. -/
abbrev State.notUrgent (s : State) : Prop := s.scrubOffer = none ∨ s.scrub.urgent = false ∧ s.scrub.range = none

theorem State.classChoice_noCommit (h : s.noCommit) : s.classChoice =
    if s.scrubOffer.isSome && s.scrubUrgent then some .scrubUrgent
    else if s.migRequests && s.port.aging == 16 then some .migrate
    else if s.hostChoice.isSome then some .host
    else if s.migRequests then some .migrate
    else if s.scrubOffer.isSome then some .scrubIdle
    else none := by
  have hx : (s.mountRequests || s.fillerRequests) = false :=
    State.no_exclusive (by rcases h with ⟨h, -⟩ | h | h <;> simp [h]) (by rcases h with ⟨h, -⟩ | h | h <;> simp [h])
  have hc : s.commitRequests = false := by
    rcases h with ⟨hd, hi⟩ | h | h
    · simp [State.commitRequests, hi]
    · simp [State.commitRequests, h]
    · simp [State.commitRequests, h]
  simp only [State.classChoice, hx, hc, Bool.false_eq_true, if_false]

theorem State.classChoice_notUrgent (h : s.noCommit) (hu : s.notUrgent) : s.classChoice =
    if s.migRequests && s.port.aging == 16 then some .migrate
    else if s.hostChoice.isSome then some .host
    else if s.migRequests then some .migrate
    else if s.scrubOffer.isSome then some .scrubIdle
    else none := by
  have hscrub : (s.scrubOffer.isSome && s.scrubUrgent) = false := by
    rcases hu with h | ⟨h, h'⟩
    · simp [h]
    · simp [State.scrubUrgent, h, h']
  rw [State.classChoice_noCommit h, hscrub, if_neg Bool.false_ne_true]

/-- A scrub request is made in READY only. -/
theorem State.ready_of_scrubOffer {x : Addr × Bool} (h : s.scrubOffer = some x) : s.dev.state = .ready := by
  by_contra hd
  simp [State.scrubOffer, hd] at h

/-! ### The HOST channels (R91) -/

theorem State.hostChoice_none (h : ∀ n, s.chanRequests n = false) : s.hostChoice = none :=
  List.find?_eq_none.mpr fun n _ => by simp [h n]

/-- The first channel with a request, counted from the round-robin pointer. -/
theorem State.hostChoice_first {k : Nat} (hk : k < 4)
    (hfirst : ∀ j : Fin 4, j.val < k → s.chanRequests (s.port.rr + j) = false)
    (hn : s.chanRequests (s.port.rr + Fin.ofNat 4 k) = true) : s.hostChoice = some (s.port.rr + Fin.ofNat 4 k) := by
  have place (j : Nat) (hj : j < 4) :
      [s.port.rr, s.port.rr + 1, s.port.rr + 2, s.port.rr + 3][j] = s.port.rr + Fin.ofNat 4 j := by
    match j, hj with
    | 0, _ => exact (add_zero _).symm
    | 1, _ | 2, _ | 3, _ => rfl
  refine List.find?_eq_some_iff_getElem.mpr ⟨hn, k, hk, place k hk, fun j hj => ?_⟩
  have hoff : Fin.ofNat 4 j = ⟨j, hj.trans hk⟩ := Fin.ext (Nat.mod_eq_of_lt (hj.trans hk))
  rw [place j (hj.trans hk), hoff, hfirst _ hj]
  rfl

theorem State.chanGrant_isSome (n : Fin 4) : (s.chanGrant n).isSome = s.chanRequests n := by
  unfold State.chanGrant State.chanRequests
  cases s.fetchOffer n <;> simp

end

/-! ### What a channel requests (R62, R73, R78, R79) -/

theorem WriteEntry.isLogical_iff (e : WriteEntry) : e.isLogical = true ↔ ∀ v d, e.value ≠ .raw v d := by
  unfold WriteEntry.isLogical
  cases e.value <;> simp

section
variable {s : State} {n : Fin 4}

theorem State.wordQueued_iff (a : Addr) :
    s.wordQueued a = true ↔ ∃ m, ∃ e ∈ (s.chan m).writeQ, (∀ v d, e.value ≠ .raw v d) ∧ e.addr = a := by
  simp only [State.wordQueued, List.any_eq_true, Bool.and_eq_true, beq_iff_eq, WriteEntry.isLogical_iff]
  constructor
  · rintro ⟨c, hc, e, he, hlog, ha⟩
    obtain ⟨i, hi, rfl⟩ := Vector.mem_iff_getElem.1 (Vector.mem_toList_iff.1 hc)
    exact ⟨⟨i, hi⟩, e, he, hlog, ha⟩
  · rintro ⟨m, e, he, hlog, ha⟩
    exact ⟨_, Vector.mem_toList_iff.2 (Vector.getElem_mem m.isLt), e, he, hlog, ha⟩

theorem State.earlierQueued_iff (e : WriteEntry) : s.earlierQueued n e = true ↔ (∀ v d, e.value ≠ .raw v d) ∧
    ∃ m, m ≠ n ∧ ∃ x ∈ (s.chan m).writeQ, (∀ v d, x.value ≠ .raw v d) ∧ x.addr = e.addr ∧ x.pos < e.pos := by
  simp [State.earlierQueued, WriteEntry.isLogical_iff, and_assoc]

theorem State.fetchOffer_eq_some_iff {a : Addr} : s.fetchOffer n = some a ↔ (s.chan n).reads = true ∧
    (s.chan n).state = .opened ∧ (s.chan n).readAhead.length < 2 ∧ (s.chan n).fetchPtr = some a ∧
      ((s.chan n).mode = .read → s.wordQueued a = false) := by
  constructor
  · intro h
    simp only [State.fetchOffer, Option.ite_none_right_eq_some, Bool.and_eq_true, beq_iff_eq, decide_eq_true_eq] at h
    obtain ⟨⟨⟨hr, ho⟩, hl⟩, h⟩ := h
    cases hf : (s.chan n).fetchPtr with
    | none => simp [hf] at h
    | some b =>
      simp only [hf, Option.ite_none_left_eq_some, Option.some.injEq] at h
      obtain ⟨hq, rfl⟩ := h
      exact ⟨hr, ho, hl, rfl, by simpa using hq⟩
  · rintro ⟨hr, ho, hl, hf, hq⟩
    simpa [State.fetchOffer, hr, ho, hl, hf] using hq

theorem State.writeOffer_eq_some_iff {e : WriteEntry} : s.writeOffer n = some e ↔ (s.chan n).reads = false ∧
    (∃ rest, (s.chan n).writeQ = e :: rest) ∧ s.earlierQueued n e = false := by
  unfold State.writeOffer
  dsimp only
  cases (s.chan n).reads with
  | true => simp
  | false =>
    cases (s.chan n).writeQ with
    | nil => simp
    | cons x rest =>
      by_cases hx : s.earlierQueued n x = true
      · simp only [Bool.false_eq_true, if_false, hx, if_true, reduceCtorEq, List.cons.injEq, true_and, false_iff]
        rintro ⟨⟨_, rfl, -⟩, h⟩
        simp [hx] at h
      · simp only [Bool.false_eq_true, if_false, hx, Option.some.injEq, List.cons.injEq, true_and]
        constructor
        · rintro rfl
          exact ⟨⟨rest, rfl, rfl⟩, by simpa using hx⟩
        · rintro ⟨⟨_, h, -⟩, -⟩
          exact h

theorem State.requests_fetch {a : Addr} (h : s.fetchOffer n = some a) :
    s.chanRequests n = true ∧ s.chanGrant n = some (s.fetchGrant n a) := by
  simp [State.chanRequests, State.chanGrant, h]

theorem State.requests_write {e : WriteEntry} (h : s.writeOffer n = some e) :
    s.chanRequests n = true ∧ s.chanGrant n = some (s.writeGrant n e) := by
  have hnone : s.fetchOffer n = none := by
    refine Option.eq_none_iff_forall_ne_some.mpr fun a ha => ?_
    have hreads := (State.fetchOffer_eq_some_iff.mp ha).1
    simp [(State.writeOffer_eq_some_iff.mp h).1] at hreads
  simp [State.chanRequests, State.chanGrant, h, hnone]

theorem State.no_request (hf : ∀ a, s.fetchOffer n ≠ some a) (hw : ∀ e, s.writeOffer n ≠ some e) :
    s.chanRequests n = false := by
  simp [State.chanRequests, Option.eq_none_iff_forall_ne_some.mpr hf, Option.eq_none_iff_forall_ne_some.mpr hw]

theorem Channel.reads_iff (c : Channel) : c.reads = true ↔ c.mode = .read ∨ c.mode = .rawRead := by
  simp [Channel.reads]

theorem Channel.reads_eq_false_iff (c : Channel) : c.reads = false ↔ c.mode = .write ∨ c.mode = .rawWrite := by
  unfold Channel.reads
  cases c.mode <;> decide

end

theorem Snapshot.attemptWord_toNat (r : Snapshot) (i : Offset) :
    r.attemptWord i.toNat = if i = 0 then 0 else r.wordAt i.toNat := by
  have hzero : i.toNat = 0 ↔ i = 0 := (BitVec.toNat_eq (y := 0#8)).symm
  simp only [Snapshot.attemptWord, hzero]

/-- Settles O49: the class present, its grant, and each channel's request. -/
theorem arbiterOrder : Obligations.ArbiterOrder := by
  intro s hstop hreset hfence kept port noCommit notUrgent
  have may (h : s.port.grant = none) : s.mayDecide = true := State.mayDecide_iff.mpr ⟨h, hstop, hreset, hfence⟩
  refine ⟨fun h => congrArg Host.Outcome.next ?_, fun h hd hm => congrArg Host.Outcome.next ?_,
    fun f h hd hf => congrArg Host.Outcome.next ?_, fun x r h hd ht hr => ?_, fun hd => ?_,
    fun a r h hi ho hu => congrArg Host.Outcome.next ?_, fun n k h hc hu hfirst hk hn hreq hage => ?_,
    fun m h hc hu hm hp hage => congrArg Host.Outcome.next ?_, fun h hc hm hreq => ?_, fun n => ?_⟩
  · have hbusy : ¬ s.mayDecide = true := fun k => by simp [(State.mayDecide_iff.mp k).1] at h
    exact if_neg hbusy
  · have hreq : s.mountRequests = true := State.mountRequests_iff.mpr ⟨hd, hreset, hm⟩
    have hgrant : s.grantOf .exclusive = some (.mountRead (s.copyAddr s.mount.nextCopy (s.mount.word.extractLsb' 0 8))) :=
      if_pos hreq
    have haddr : s.copyAddr s.mount.nextCopy (s.mount.word.extractLsb' 0 8) =
        wordAddr (BitVec.ofNat 12 (s.physBlocks - if s.mount.word.getLsbD 8 then 1 else 2))
          (s.mount.word.extractLsb' 0 8) := by
      unfold MountReader.nextCopy
      cases s.mount.word.getLsbD 8 <;> rfl
    rw [State.decide_kept (may h) (State.classChoice_exclusive (by simp [hreq])) hgrant (by simp) (by simp), haddr,
      State.markHeld, hreq]
  · have hmount : s.mountRequests = false := by simp [State.mountRequests, hd]
    have hgrant : s.grantOf .exclusive = some (s.fillerGrant f) := by
      simp [State.grantOf, State.exclusiveGrant, hmount, hf]
    rw [State.decide_kept (may h)
      (State.classChoice_exclusive (by simp [State.fillerRequests, hd, hf])) hgrant (by simp) (by simp),
      State.markHeld, hmount]
  · have grants {g : Grant} (hdir : s.dir.state ≠ .idle) (hg : s.commitGrant = some g) :
        exec .grantDecision s = .next { s with port := port g .commit kept } :=
      congrArg Host.Outcome.next
        (State.decide_kept (may h) (State.classChoice_commit hd hdir) hg (by simp) (by simp))
    refine ⟨fun hs => grants (by simp [hs]) ?_, fun hs hcl => grants (by simp [hs]) ?_,
      fun hs hcl => grants (by simp [hs]) ?_⟩
    · simp only [State.commitGrant, ht, hr, hs, Option.map_some, Option.getD_some, Snapshot.attemptWord_toNat]
      rfl
    · simp only [State.commitGrant, ht, hs, hcl, Option.map_some]
      rfl
    · simp only [State.commitGrant, ht, hs, hcl, Option.map_some]
      rfl
  · refine ⟨fun r hr => ?_, fun hr => ?_⟩
    · simp [State.scrubOffer, hd, hr]
    · have hdue : (s.normalDue && !s.skipped s.scrub.block) = true ↔
          s.scrub.enable = true ∧ s.scrub.backlog ≠ 0 ∧ s.skipped s.scrub.block = false := by
        simp [State.normalDue, hd, hr, and_assoc]
      simp only [State.scrubOffer, hd, hr, hdue]
      rfl
  · have hd := State.ready_of_scrubOffer ho
    have hurgent : (s.scrubOffer.isSome && s.scrubUrgent) = true := by simpa [ho, State.scrubUrgent] using hu
    have hclass : s.classChoice = some .scrubUrgent := by
      rw [State.classChoice_noCommit (.inl ⟨hd, hi⟩), if_pos hurgent]
    have hgrant : s.grantOf .scrubUrgent = some (.scrub a s.scrub.poisonOnScrub r) := by
      simp [State.grantOf, State.scrubGrant, ho]
    exact State.decide_kept (may h) hclass hgrant (by simp) (by simp)
  · subst hn
    have hchoice := State.hostChoice_first hk hfirst hreq
    obtain ⟨g, hg⟩ := Option.isSome_iff_exists.mp ((State.chanGrant_isSome _).trans hreq)
    have hclass : s.classChoice = some .host := by
      rw [State.classChoice_notUrgent hc hu, hage, hchoice]
      rfl
    have hgrant : s.grantOf .host = some g := (congrArg (fun x => Option.bind x s.chanGrant) hchoice).trans hg
    have hmark : s.markHeld .host = s.setChan (s.port.rr + Fin.ofNat 4 k)
        { s.chan (s.port.rr + Fin.ofNat 4 k) with holds := true } := by
      simp only [State.markHeld, hchoice]
    have hrr : s.rrAfter .host = s.port.rr + Fin.ofNat 4 k + 1 := by
      simp only [State.rrAfter, if_true, hchoice]
    have hdecide := State.decide_grants (may h) hclass hgrant
    rw [hmark, hrr] at hdecide
    refine ⟨_, g, congrArg Host.Outcome.next hdecide, hg, ?_, rfl, rfl⟩
    cases s.migRequests <;> rfl
  · have hreq : s.migRequests = true := by simp [State.migRequests, hm, hp]
    have hclass : s.classChoice = some .migrate := by
      rw [State.classChoice_notUrgent hc hu, hreq]
      rcases hage with ha | hn
      · simp [ha]
      · simp [State.hostChoice_none hn]
    have hgrant : s.grantOf .migrate = some (if m.phase = .copy then
        .copy (wordAddr m.source (BitVec.ofNat 8 m.cursor)) (wordAddr (s.spareBlock m.spare) (BitVec.ofNat 8 m.cursor))
          m.ident
      else .verify (wordAddr (s.spareBlock m.spare) (BitVec.ofNat 8 m.cursor)) m.ident) := by
      simp only [State.grantOf, State.migGrant, hm, Option.map_some]
      cases hphase : m.phase with
      | copy => rfl
      | verify => rfl
      | commitWait => exact absurd hphase hp
    refine (State.decide_grants (may h) hclass hgrant).trans ?_
    rw [hreq]
    rfl
  · have hclass (hu : s.notUrgent) :
        s.classChoice = if s.scrubOffer.isSome then some .scrubIdle else none := by
      rw [State.classChoice_notUrgent hc hu, hm, State.hostChoice_none hreq]
      rfl
    refine ⟨fun a r ho hurgent hrange => congrArg Host.Outcome.next ?_, fun ho => congrArg Host.Outcome.next ?_⟩
    · have hgrant : s.grantOf .scrubIdle = some (.scrub a s.scrub.poisonOnScrub r) := by
        simp [State.grantOf, State.scrubGrant, ho]
      have hidle := hclass (.inr ⟨hurgent, hrange⟩)
      rw [ho] at hidle
      refine (State.decide_kept (may h) hidle hgrant (by simp) (by simp)).trans ?_
      rw [hm]
      rfl
    · have hidle := hclass (.inl ho)
      rw [ho] at hidle
      exact State.decide_idle hidle
  · intro c logical queued earlier fetches
    have hqueued (a : Addr) : s.wordQueued a = false ↔ ¬ queued a := by
      rw [← Bool.not_eq_true, State.wordQueued_iff]
    have hearlier (e : WriteEntry) : s.earlierQueued n e = false ↔ ¬ earlier e := by
      rw [← Bool.not_eq_true, State.earlierQueued_iff]
    have hfetches (a : Addr) : s.fetchOffer n = some a ↔ c.reads = true ∧ fetches a := by
      rw [State.fetchOffer_eq_some_iff]
      simp only [hqueued]
      exact Iff.rfl
    have hwrites (e : WriteEntry) :
        s.writeOffer n = some e ↔ c.reads = false ∧ (∃ rest, c.writeQ = e :: rest) ∧ ¬ earlier e := by
      rw [State.writeOffer_eq_some_iff, hearlier]
    refine ⟨fun a hm ha => ?_, fun a hm ha => ?_, fun hm hno => ?_, fun e rest hm hq he => ?_, fun hm hno => ?_⟩
    · have h := State.requests_fetch ((hfetches a).mpr ⟨c.reads_iff.mpr (.inl hm), ha⟩)
      exact ⟨h.1, h.2.trans (congrArg some (if_pos hm))⟩
    · have h := State.requests_fetch ((hfetches a).mpr ⟨c.reads_iff.mpr (.inr hm), ha⟩)
      exact ⟨h.1, h.2.trans (congrArg some (if_neg fun k => by simp [c, k] at hm))⟩
    · refine State.no_request (fun a ha => hno a ((hfetches a).mp ha).2) fun e he => ?_
      exact absurd ((hwrites e).mp he).1 (by simp [c.reads_iff.mpr hm])
    · have h := State.requests_write ((hwrites e).mpr ⟨c.reads_eq_false_iff.mpr hm, ⟨rest, hq⟩, he⟩)
      have grant {g : Grant} (hg : s.writeGrant n e = g) : s.chanGrant n = some g := h.2.trans (congrArg some hg)
      refine ⟨h.1, fun v hv => grant ?_, fun v hv => grant ?_, fun v hv => grant ?_, fun v d hv => grant ?_⟩
      all_goals rw [State.writeGrant, hv]
    · refine State.no_request (fun a ha => ?_) fun e he => ?_
      · exact absurd ((hfetches a).mp ha).1 (by simp [c.reads_eq_false_iff.mpr hm])
      · obtain ⟨-, ⟨rest, hq⟩, hn⟩ := (hwrites e).mp he
        exact hn (hno e rest hq)

end Sys2Proof.Machine

namespace Sys2Proof.Machine

/-! The memory limit of the check counts Lean's threads: the proofs from here on are elaborated one after another. -/
set_option Elab.async false

/-! ### Looking a record up in the fault table (R122, R125) -/

section
variable {α : Type} {p : α → Bool} {l : List α} {i : Nat} {y : α}

theorem List.find?_set_of_findIdx? (h : l.findIdx? p = some i) (hy : p y = true) : (l.set i y).find? p = some y := by
  induction l generalizing i with
  | nil => simp at h
  | cons x l ih =>
    rw [List.findIdx?_cons] at h
    by_cases hx : p x = true
    · simp only [hx, if_true, Option.some.injEq] at h
      subst h
      simp [hy]
    · simp only [hx, Bool.false_eq_true, if_false, Option.map_eq_some_iff] at h
      obtain ⟨j, hj, rfl⟩ := h
      simp [hx, ih hj]

theorem List.findIdx?_set_of_findIdx? (h : l.findIdx? p = some i) (hy : p y = true) :
    (l.set i y).findIdx? p = some i := by
  induction l generalizing i with
  | nil => simp at h
  | cons x l ih =>
    rw [List.findIdx?_cons] at h
    by_cases hx : p x = true
    · simp only [hx, if_true, Option.some.injEq] at h
      subst h
      simp [List.findIdx?_cons, hy]
    · simp only [hx, Bool.false_eq_true, if_false, Option.map_eq_some_iff] at h
      obtain ⟨j, hj, rfl⟩ := h
      simp [List.findIdx?_cons, hx, ih hj]

/-- An element that fails the test may be replaced by another that fails it. -/
theorem List.find?_set_of_not (hl : ∀ x, l[i]? = some x → p x = false) (hy : p y = false) :
    (l.set i y).find? p = l.find? p := by
  induction l generalizing i with
  | nil => rfl
  | cons x l ih =>
    cases i with
    | zero =>
      have hx : p x = false := hl x rfl
      simp [hx, hy]
    | succ i =>
      have := ih (i := i) fun z hz => hl z (by simpa using hz)
      simp [List.find?_cons, this]

theorem List.findIdx?_set_of_not (hl : ∀ x, l[i]? = some x → p x = false) (hy : p y = false) :
    (l.set i y).findIdx? p = l.findIdx? p := by
  induction l generalizing i with
  | nil => rfl
  | cons x l ih =>
    cases i with
    | zero =>
      have hx : p x = false := hl x rfl
      simp [List.findIdx?_cons, hx, hy]
    | succ i =>
      have := ih (i := i) fun z hz => hl z (by simpa using hz)
      simp [List.findIdx?_cons, this]

end

theorem FaultTable.slotOf_def (t : FaultTable) (b : Block) :
    t.slotOf b = t.slots.toList.findIdx? fun r => r.any fun x => x.phys == b := rfl

theorem FaultTable.recordOf_def (t : FaultTable) (b : Block) :
    t.recordOf b = (t.slots.toList.find? fun r => r.any fun x => x.phys == b).join := rfl

theorem FaultTable.setSlot_toList (t : FaultTable) (i : Nat) (r : Option FaultRecord) :
    (t.setSlot i r).slots.toList = t.slots.toList.set i r := by
  simp [FaultTable.setSlot]

section
variable {t : FaultTable} {b c : Block} {r y : FaultRecord} {i : Nat}

/-- A slot and its record are found together. -/
theorem FaultTable.recordOf_eq_some_iff :
    t.recordOf b = some r ↔ ∃ i, t.slotOf b = some i ∧ t.slots.toList[i]? = some (some r) := by
  rw [FaultTable.recordOf_def, FaultTable.slotOf_def, Option.join_eq_some_iff]
  simp only [List.find?_eq_some_iff_getElem, List.findIdx?_eq_some_iff_getElem]
  constructor
  · rintro ⟨hp, i, hi, hget, hbefore⟩
    exact ⟨i, ⟨hi, hget ▸ hp, by simpa using hbefore⟩, List.getElem?_eq_some_iff.mpr ⟨hi, hget⟩⟩
  · rintro ⟨i, ⟨hi, hp, hbefore⟩, hget⟩
    obtain ⟨_, hget⟩ := List.getElem?_eq_some_iff.mp hget
    exact ⟨hget ▸ hp, i, hi, hget, by simpa using hbefore⟩

theorem FaultTable.slotOf_phys (h : t.slotOf b = some i) : ∃ r, t.slots.toList[i]? = some (some r) ∧ r.phys = b := by
  obtain ⟨hi, hp, -⟩ := List.findIdx?_eq_some_iff_getElem.mp h
  obtain ⟨r, hr, hb⟩ := (Option.any_eq_true _ _).mp hp
  exact ⟨r, List.getElem?_eq_some_iff.mpr ⟨hi, hr⟩, beq_iff_eq.mp hb⟩

theorem FaultTable.recordOf_phys (h : t.recordOf b = some r) : r.phys = b := by
  obtain ⟨i, hi, hr⟩ := FaultTable.recordOf_eq_some_iff.mp h
  obtain ⟨r', hr', hb⟩ := FaultTable.slotOf_phys hi
  cases hr.symm.trans hr'
  exact hb

theorem FaultTable.slotOf_eq_none_iff :
    t.slotOf b = none ↔ ∀ (j : Nat) (x : FaultRecord), t.slots.toList[j]? = some (some x) → x.phys ≠ b := by
  rw [FaultTable.slotOf_def, List.findIdx?_eq_none_iff]
  constructor
  · intro h j x hx
    simpa using h _ (List.mem_of_getElem? hx)
  · rintro h (_ | x) hx
    · rfl
    · obtain ⟨j, hj⟩ := List.mem_iff_getElem?.mp hx
      simpa using h j x hj

theorem FaultTable.recordOf_eq_none_iff : t.recordOf b = none ↔ t.slotOf b = none := by
  constructor
  · intro h
    by_contra hslot
    obtain ⟨i, hi⟩ := Option.ne_none_iff_exists'.mp hslot
    obtain ⟨r, hr, -⟩ := FaultTable.slotOf_phys hi
    simp [FaultTable.recordOf_eq_some_iff.mpr ⟨i, hi, hr⟩] at h
  · intro h
    by_contra hrec
    obtain ⟨r, hr⟩ := Option.ne_none_iff_exists'.mp hrec
    obtain ⟨i, hi, -⟩ := FaultTable.recordOf_eq_some_iff.mp hr
    simp [h] at hi

/-- The record of a block replaced by another of the same block. -/
theorem FaultTable.recordOf_setSlot_self (h : t.slotOf b = some i) (hy : y.phys = b) :
    (t.setSlot i (some y)).recordOf b = some y := by
  rw [FaultTable.recordOf_def, FaultTable.setSlot_toList, List.find?_set_of_findIdx? h (by simpa using hy)]
  rfl

/-- The slot of another block's record may be replaced by a record that is not of the block. -/
theorem FaultTable.recordOf_setSlot_other (h : ∀ x, t.slots.toList[i]? = some (some x) → x.phys ≠ c) (hy : y.phys ≠ c) :
    (t.setSlot i (some y)).recordOf c = t.recordOf c := by
  rw [FaultTable.recordOf_def, FaultTable.setSlot_toList, List.find?_set_of_not _ (by simpa using hy)]
  · rfl
  · rintro (_ | x) hx
    · rfl
    · simpa using h x hx

end

/-! ### Notices to the fault table (R132) -/

section
variable {s : State} {b c : Block} {before : List FaultState} {after : FaultState} {q : FaultRecord}

theorem State.notice_of_no_record (h : s.faults.recordOf b = none) : s.notice b before after = s := by
  rw [State.notice, FaultTable.recordOf_eq_none_iff.mp h]

theorem State.notice_of_record {i : Nat} (hi : s.faults.slotOf b = some i) (h : s.faults.recordOf b = some q) :
    s.notice b before after = if q.state ∈ before then
      { s with faults :=
        s.faults.setSlot i (some { q with state := after, logical := s.refreshLogical b q.logical }) }
    else s := by
  simp only [State.notice, hi, h]

theorem State.notice_recordOf (h : s.faults.recordOf b = some q) :
    (s.notice b before after).faults.recordOf b = some
      (if q.state ∈ before then { q with state := after, logical := s.refreshLogical b q.logical } else q) := by
  obtain ⟨i, hi, -⟩ := FaultTable.recordOf_eq_some_iff.mp h
  rw [State.notice_of_record hi h]
  by_cases hq : q.state ∈ before
  · rw [if_pos hq, if_pos hq]
    exact FaultTable.recordOf_setSlot_self hi (FaultTable.recordOf_phys (r := q) h)
  · rw [if_neg hq, if_neg hq, h]

theorem State.notice_recordOf_other (hne : c ≠ b) :
    (s.notice b before after).faults.recordOf c = s.faults.recordOf c := by
  cases h : s.faults.recordOf b with
  | none => rw [State.notice_of_no_record h]
  | some q =>
    obtain ⟨i, hi, hr⟩ := FaultTable.recordOf_eq_some_iff.mp h
    have hphys : q.phys ≠ c := by
      rw [FaultTable.recordOf_phys h]
      exact hne.symm
    rw [State.notice_of_record hi h]
    split
    · refine FaultTable.recordOf_setSlot_other (fun x hx => ?_) hphys
      cases hr.symm.trans hx
      exact hphys
    · rfl

/-- A notice keeps every record, though perhaps in another state. -/
theorem State.notice_keeps_record (h : s.faults.recordOf c = some q) :
    ∃ p, (s.notice b before after).faults.recordOf c = some p := by
  by_cases hc : c = b
  · subst hc
    exact ⟨_, State.notice_recordOf h⟩
  · exact ⟨q, (State.notice_recordOf_other hc).trans h⟩

/-- R132: the record of a block whose migration starts becomes MIGRATING. -/
theorem State.startNotice_recordOf (h : s.faults.recordOf b = some q) :
    ∃ p, (s.startNotice b).faults.recordOf b = some p ∧ p.state = .migrating := by
  have hall : q.state ∈ [FaultState.observed, .queued, .migrating, .retired, .unspareable] := by
    cases q.state <;> decide
  refine ⟨{ q with state := .migrating, logical := s.refreshLogical b q.logical }, ?_, rfl⟩
  rw [State.startNotice, h]
  exact (State.notice_recordOf h).trans (congrArg some (if_pos hall))

end

/-! ### Requests and starts (R139, R141 to R143) -/

theorem State.home_congr {s t : State} (hmap : t.map = s.map) (hp : t.pCode = s.pCode) (b : Block) :
    t.home b = s.home b := by
  simp only [State.home, State.entryOf, State.spareBlock, State.physBlocks, State.spareCount, hmap, hp]

section
variable {s : State}

theorem State.freeSpare_eq_some_iff {k : Nat} : s.freeSpare = some k ↔
    s.map.spares[k]? = some .free ∧ ∀ j, j < k → s.map.spares[j]? ≠ some .free := by
  rw [State.freeSpare, List.findIdx?_eq_some_iff_getElem]
  constructor
  · rintro ⟨hk, hfree, hbefore⟩
    refine ⟨List.getElem?_eq_some_iff.mpr ⟨hk, by simpa using hfree⟩, fun j hj h => ?_⟩
    obtain ⟨_, hj'⟩ := List.getElem?_eq_some_iff.mp h
    simpa [hj'] using hbefore j hj
  · rintro ⟨hfree, hbefore⟩
    obtain ⟨hk, hk'⟩ := List.getElem?_eq_some_iff.mp hfree
    refine ⟨hk, by simp [hk'], fun j hj => ?_⟩
    have := hbefore j hj
    rw [List.getElem?_eq_getElem (hj.trans hk)] at this
    simpa using this

theorem State.freeSpare_eq_none_iff : s.freeSpare = none ↔ ∀ j : Nat, s.map.spares[j]? ≠ some .free := by
  rw [State.freeSpare, List.findIdx?_eq_none_iff]
  constructor
  · intro h j hj
    simpa using h _ (List.mem_of_getElem? hj)
  · intro h x hx
    obtain ⟨j, hj⟩ := List.mem_iff_getElem?.mp hx
    have := h j
    rw [hj] at this
    simpa using this

theorem State.startDue_iff : s.startDue = true ↔
    s.mig.flight = none ∧ s.dev.state = .ready ∧ s.dev.dirReadonly = false ∧ s.mig.queue ≠ [] := by
  simp [State.startDue, and_assoc]

theorem State.tryStart_of_not_due (h : s.startDue = false) : s.tryStart = s := if_neg (by simp [h])

theorem State.tryStart_of_flight (h : s.mig.flight ≠ none) : s.tryStart = s :=
  State.tryStart_of_not_due (Bool.eq_false_iff.mpr fun k => h (State.startDue_iff.mp k).1)

theorem State.tryStart_of_empty (h : s.mig.queue = []) : s.tryStart = s :=
  State.tryStart_of_not_due (Bool.eq_false_iff.mpr fun k => (State.startDue_iff.mp k).2.2.2 h)

theorem State.tryStart_of_readonly (h : s.dev.dirReadonly = true) : s.tryStart = s :=
  State.tryStart_of_not_due (Bool.eq_false_iff.mpr fun k => by simp [State.startDue, h] at k)

/-- R142: the head of the queue starts on the FREE spare of lowest index. -/
theorem State.tryStart_starts {r : MigRequest} {rest : List MigRequest} {k : Nat} (hf : s.mig.flight = none)
    (hd : s.dev.state = .ready) (hro : s.dev.dirReadonly = false) (hq : s.mig.queue = r :: rest)
    (hk : s.freeSpare = some k) :
    s.tryStart = ({ s with mig := { s.mig with queue := rest } } : State).startWith r.block k := by
  rw [State.tryStart, if_pos (State.startDue_iff.mpr ⟨hf, hd, hro, by simp [hq]⟩), hq, startFrom, hk]

/-- R143: the only entry of the queue finds no FREE spare. -/
theorem State.tryStart_noSpare {r : MigRequest} (hf : s.mig.flight = none) (hd : s.dev.state = .ready)
    (hro : s.dev.dirReadonly = false) (hq : s.mig.queue = [r]) (hk : s.freeSpare = none) :
    s.tryStart = { s.endNoSpare r.block with mig := { (s.endNoSpare r.block).mig with queue := [] } } := by
  rw [State.tryStart, if_pos (State.startDue_iff.mpr ⟨hf, hd, hro, by simp [hq]⟩), hq, startFrom, hk]
  rfl

/-- R139: an accepted request in the queue and the fault table told of it. -/
def State.requested (s : State) (lam : Block) (o : Origin) : State :=
  ({ s with mig := { s.mig with queue := s.mig.queue ++ [{ block := lam, origin := o }] } } : State).notice
    (s.home lam) [.observed, .unspareable] .queued

theorem State.requestMigration_accepted {lam : Block} (h : s.migAnswer lam = .accepted) (o : Origin) :
    s.requestMigration lam o = (s.requested lam o).tryStart := by
  rw [State.requestMigration, h]
  rfl

theorem State.requestMigration_refused {lam : Block} (h : s.migAnswer lam ≠ .accepted) (o : Origin) :
    s.requestMigration lam o = s := by
  unfold State.requestMigration
  split
  · rename_i hacc
    exact absurd hacc h
  · rfl

theorem State.requested_eq (s : State) (lam : Block) (o : Origin) : s.requested lam o = { s with
    mig := { s.mig with queue := s.mig.queue ++ [{ block := lam, origin := o }] }
    faults := (s.requested lam o).faults } := State.notice_eq _ _ _ _

theorem State.requested_mig (s : State) (lam : Block) (o : Origin) :
    (s.requested lam o).mig = { s.mig with queue := s.mig.queue ++ [{ block := lam, origin := o }] } := by
  rw [State.requested_eq]

theorem State.requestMigration_waits {lam : Block} (h : s.migAnswer lam = .accepted)
    (hw : s.mig.flight.isSome = true ∨ s.dev.dirReadonly = true) (o : Origin) :
    s.requestMigration lam o = s.requested lam o := by
  rw [State.requestMigration_accepted h]
  rcases hw with hf | hro
  · refine State.tryStart_of_flight ?_
    rw [State.requested_mig]
    exact Option.isSome_iff_ne_none.mp hf
  · refine State.tryStart_of_readonly ?_
    rw [State.requested_eq]
    exact hro

theorem State.migAnswer_duplicate {lam : Block}
    (h : (∃ m, s.mig.flight = some m ∧ m.lam = lam) ∨ ∃ r ∈ s.mig.queue, r.block = lam) :
    s.migAnswer lam = .duplicate := by
  refine if_pos ?_
  rcases h with ⟨m, hm, hl⟩ | h
  · simp [hm, hl]
  · simp only [Bool.or_eq_true, List.any_eq_true, beq_iff_eq]
    exact .inr h

theorem State.migAnswer_full {lam : Block} (hf : ∀ m, s.mig.flight = some m → m.lam ≠ lam)
    (hq : ∀ r ∈ s.mig.queue, r.block ≠ lam) (hfull : 8 ≤ s.mig.queue.length) : s.migAnswer lam = .queueFull := by
  have hnew : ¬ ((s.mig.flight.any fun m => m.lam == lam) || (s.mig.queue.any fun r => r.block == lam)) = true := by
    simp only [Bool.or_eq_true, Option.any_eq_true, List.any_eq_true, beq_iff_eq, not_or, not_exists, not_and]
    exact ⟨hf, hq⟩
  rw [State.migAnswer, if_neg hnew, if_pos hfull]

end

/-- The state with one more free order taken (log 8). -/
def State.drawn (s : State) : State := { s with choices := s.choices + 1 }

theorem State.eitherWay_orders (s : State) (f g : State → State) :
    s.eitherWay f g = g (f s.drawn) ∨ s.eitherWay f g = f (g s.drawn) := s.eitherWay_cases f g

/-- Two effects in either order, of which the second has none. -/
theorem State.eitherWay_left {s : State} {f g : State → State} (hbefore : g s.drawn = s.drawn)
    (hafter : g (f s.drawn) = f s.drawn) : s.eitherWay f g = f s.drawn := by
  rcases s.eitherWay_orders f g with h | h
  · rw [h, hafter]
  · rw [h, hbefore]

/-! ### What the migration engine leaves -/

/-- `t` differs from `s` in the map, the migration engine, the fault table and the event queue alone. -/
def OnlyMigration (s t : State) : Prop :=
  t = { s with map := t.map, mig := t.mig, faults := t.faults, events := t.events }

namespace OnlyMigration

variable {s t u : State}

theorem trans (h : OnlyMigration s t) (k : OnlyMigration t u) : OnlyMigration s u := by
  unfold OnlyMigration at h k ⊢
  rw [k, h]

theorem notice (s : State) (b : Block) (before : List FaultState) (after : FaultState) :
    OnlyMigration s (s.notice b before after) := by
  unfold OnlyMigration
  rw [State.notice_eq]

theorem post (s : State) (r : EventRecord) : OnlyMigration s (s.post r) := rfl

theorem setMig (s : State) (e : MigEngine) : OnlyMigration s { s with mig := e } := rfl

theorem startWith (s : State) (lam : Block) (k : Nat) : OnlyMigration s (s.startWith lam k) := by
  unfold OnlyMigration
  have h : s.startWith lam k = _ := State.startNotice_eq _ _
  rw [h]
  rfl

theorem endNoSpare (s : State) (lam : Block) : OnlyMigration s (s.endNoSpare lam) := (notice s _ _ _).trans (post _ _)

theorem startFrom (l : List MigRequest) (s : State) : OnlyMigration s (startFrom l s) := by
  induction l generalizing s with
  | nil => exact setMig s _
  | cons r rest ih =>
    rw [Machine.startFrom]
    split
    · exact (setMig s _).trans (startWith _ _ _)
    · exact (endNoSpare s _).trans (ih _)

theorem tryStart (s : State) : OnlyMigration s s.tryStart := by
  unfold State.tryStart
  split
  · exact startFrom _ s
  · exact rfl

theorem requestMigration (s : State) (lam : Block) (o : Origin) : OnlyMigration s (s.requestMigration lam o) := by
  unfold State.requestMigration
  split
  · exact ((setMig s _).trans (notice _ _ _ _)).trans (tryStart _)
  · exact rfl

theorem release (s : State) (k : Nat) : OnlyMigration s (s.release k) := by
  unfold State.release
  split <;> exact rfl

theorem abandon (s : State) (m : Migration) (r : AbandonReason) : OnlyMigration s (s.abandon m r) := by
  have hspare : OnlyMigration s (match r with
      | .commitFailed => s.release m.spare
      | .cancelled => s.release m.spare
      | .noSpare => s
      | .retries => s) := by
    cases r with
    | commitFailed | cancelled => exact release s _
    | noSpare | retries => exact rfl
  exact (((hspare.trans (notice _ _ _ _)).trans (post _ _)).trans (setMig _ _)).trans (tryStart _)

theorem cancelMigration (s : State) (lam : Block) : OnlyMigration s (s.cancelMigration lam) := by
  unfold State.cancelMigration
  split
  · exact (setMig s _).trans (notice _ _ _ _)
  · split
    · split
      · exact abandon s _ _
      · exact rfl
    · exact rfl

/-- With no range run and no credit, nothing is passed over after the engine's part. -/
theorem scrubSettle_eq (h : OnlyMigration s t) (hr : s.scrub.range = none) (hb : s.scrub.backlog = 0) :
    t.scrubSettle = t :=
  State.scrubSettle_spent ((congrArg (fun x => x.scrub.range) h).trans hr)
    ((congrArg (fun x => x.scrub.backlog) h).trans hb)

end OnlyMigration

/-! ### SPARE_BLOCK (R184) -/

section
variable {s : State} (hd : s.dev.state = .ready)
include hd

theorem State.takeSpareBlock_badArg (h : s.logicalBlocks ≤ s.cmd.arg0.toNat) :
    s.takeSpareBlock = s.complete .badArg := by
  rw [State.takeSpareBlock, if_neg (not_not_intro hd), if_pos (Nat.not_lt.mpr h)]

theorem State.takeSpareBlock_noSpares (h : s.cmd.arg0.toNat < s.logicalBlocks) (hs : s.spareCount = 0) :
    s.takeSpareBlock = s.complete .noSpare := by
  rw [State.takeSpareBlock, if_neg (not_not_intro hd), if_neg (not_not_intro h), if_pos hs]

/-- The command's two parts: its completion and the migration engine's. -/
theorem State.takeSpareBlock_answered {b : Block} (hb : b.toNat = s.cmd.arg0.toNat) (h : b.toNat < s.logicalBlocks)
    (hs : s.spareCount ≠ 0) : s.takeSpareBlock = s.eitherWay
      (fun x => x.complete (answerResult (s.migAnswer b))) fun x => (x.requestMigration b .host).scrubSettle := by
  rw [State.takeSpareBlock, if_neg (not_not_intro hd), if_neg (not_not_intro (hb ▸ h)), if_neg hs, argBlock_eq hb]

variable (hbl : s.scrub.backlog = 0) (hr : s.scrub.range = none)
include hbl hr

/-- A request that is not accepted leaves the command's completion alone. -/
theorem State.takeSpareBlock_refused {b : Block} (hb : b.toNat = s.cmd.arg0.toNat) (h : b.toNat < s.logicalBlocks)
    (hs : s.spareCount ≠ 0) {a : MigAnswer} (ha : s.migAnswer b = a) (hacc : a ≠ .accepted) : s.takeSpareBlock =
      s.drawn.complete (answerResult a) := by
  subst ha
  rw [State.takeSpareBlock_answered hd hb h hs]
  have engine {x : State} (hx : x.migAnswer b ≠ .accepted) (hxr : x.scrub.range = none) (hxb : x.scrub.backlog = 0) :
      (x.requestMigration b .host).scrubSettle = x := by
    rw [State.requestMigration_refused hx, State.scrubSettle_spent hxr hxb]
  exact State.eitherWay_left (engine hacc hr hbl) (engine hacc hr hbl)

end

/-- The migration engine's part and the completion of the command, in either order. -/
theorem State.takeSpareBlock_orders {s : State} (hd : s.dev.state = .ready) (hr : s.scrub.range = none)
    (hbl : s.scrub.backlog = 0) {b : Block} (hb : b.toNat = s.cmd.arg0.toNat) (h : b.toNat < s.logicalBlocks)
    (hs : s.spareCount ≠ 0) (hacc : s.migAnswer b = .accepted) :
    s.takeSpareBlock = (s.drawn.complete .ok).requestMigration b .host ∨
      s.takeSpareBlock = (s.drawn.requestMigration b .host).complete .ok := by
  rw [State.takeSpareBlock_answered hd hb h hs, hacc]
  have settle (x : State) (hxr : x.scrub.range = none) (hxb : x.scrub.backlog = 0) :
      (x.requestMigration b .host).scrubSettle = x.requestMigration b .host :=
    (OnlyMigration.requestMigration x b .host).scrubSettle_eq hxr hxb
  rcases State.eitherWay_orders s (fun x => x.complete .ok) fun x => (x.requestMigration b .host).scrubSettle with
    heq | heq
  · exact .inl (heq.trans (settle (s.drawn.complete .ok) hr hbl))
  · exact .inr (heq.trans (congrArg (fun x => State.complete x .ok) (settle s.drawn hr hbl)))

/-- An accepted request, told of in the fault table, starts on the FREE spare of lowest index. -/
theorem State.requestMigration_starts {s : State} {b : Block} {o : Origin} {r : MigRequest} {rest : List MigRequest}
    {k : Nat} (hacc : s.migAnswer b = .accepted) (hf : s.mig.flight = none) (hd : s.dev.state = .ready)
    (hro : s.dev.dirReadonly = false) (hq : s.mig.queue ++ [⟨b, o⟩] = r :: rest) (hk : s.freeSpare = some k) :
    s.requestMigration b o =
      ({ s.requested b o with mig := { s.mig with queue := rest } } : State).startWith r.block k := by
  rw [State.requestMigration_accepted hacc, State.tryStart_starts (r := r) (rest := rest) (k := k), State.requested_mig]
  · rw [State.requested_mig]
    exact hf
  · rw [State.requested_eq]
    exact hd
  · rw [State.requested_eq]
    exact hro
  · rw [State.requested_mig]
    exact hq
  · rw [State.requested_eq]
    exact hk

/-- R143: an accepted request that finds the queue empty and no spare FREE ends NO_SPARE. -/
theorem State.requestMigration_noSpare {s : State} {b : Block} {o : Origin} (hacc : s.migAnswer b = .accepted)
    (hf : s.mig.flight = none) (hd : s.dev.state = .ready) (hro : s.dev.dirReadonly = false) (hq : s.mig.queue = [])
    (hk : s.freeSpare = none) : ∃ t, s.requestMigration b o = { s with
      faults := t, events := s.events.offer (abandonedRecord (s.home b) b .noSpare) } := by
  have hempty : s.mig = { s.mig with queue := [] } := by rw [← hq]
  generalize hf' : (s.requested b o).faults = f
  have hreq : s.requested b o = { s with mig := { s.mig with queue := [⟨b, o⟩] }, faults := f } := by
    rw [State.requested_eq, hf', hq]
    rfl
  have hstart := State.tryStart_noSpare (s := s.requested b o) (r := ⟨b, o⟩) (by rw [hreq]; exact hf)
    (by rw [hreq]; exact hd) (by rw [hreq]; exact hro) (by rw [hreq]) (by rw [hreq]; exact hk)
  refine ⟨((s.requested b o).notice ((s.requested b o).home b) (abandonedBefore .noSpare) .unspareable).faults,
    (State.requestMigration_accepted hacc o).trans (hstart.trans ?_)⟩
  refine Eq.trans ?_ (congrArg (fun e => ({ s with
    mig := e, events := s.events.offer (abandonedRecord (s.home b) b .noSpare), faults := _ } : State)) hempty.symm)
  rw [State.endNoSpare, State.notice_eq, hreq]
  rfl

/-- A migration that starts leaves the queue, the events and the command engine. -/
theorem State.startWith_eq (s : State) (lam : Block) (k : Nat) : s.startWith lam k = { s with
    map := { s.map with spares := s.map.spares.set k .allocated }
    mig := { s.mig with
      flight := some { phase := .copy, lam := lam, source := s.home lam, spare := k, cursor := 0, poison := 0,
                       attempt := 1, ident := s.mig.nextId }
      nextId := s.mig.nextId + 1 }
    faults := (s.startWith lam k).faults } := State.startNotice_eq _ _

theorem State.startWith_recordOf {s : State} {lam : Block} {q : FaultRecord}
    (h : s.faults.recordOf (s.home lam) = some q) (k : Nat) :
    ∃ p, (s.startWith lam k).faults.recordOf (s.home lam) = some p ∧ p.state = .migrating :=
  State.startNotice_recordOf h

/-! #### What a request does to the queue, the map and the events -/

section
variable {s : State} {b : Block} {o : Origin} (hacc : s.migAnswer b = .accepted)
include hacc

theorem State.requestMigration_waits_fields (hw : s.mig.flight.isSome = true ∨ s.dev.dirReadonly = true) :
    (s.requestMigration b o).mig = { s.mig with queue := s.mig.queue ++ [⟨b, o⟩] } ∧
      (s.requestMigration b o).map = s.map ∧ (s.requestMigration b o).events = s.events := by
  rw [State.requestMigration_waits hacc hw, State.requested_eq]
  exact ⟨rfl, rfl, rfl⟩

variable (hf : s.mig.flight = none) (hd : s.dev.state = .ready) (hro : s.dev.dirReadonly = false)
include hf hd hro

theorem State.requestMigration_starts_fields {r : MigRequest} {rest : List MigRequest} {k : Nat}
    (hq : s.mig.queue ++ [⟨b, o⟩] = r :: rest) (hk : s.freeSpare = some k) :
    (s.requestMigration b o).mig = { queue := rest, nextId := s.mig.nextId + 1
                                     flight := some { phase := .copy, lam := r.block, source := s.home r.block
                                                      spare := k, cursor := 0, poison := 0, attempt := 1
                                                      ident := s.mig.nextId } } ∧
      (s.requestMigration b o).map = { s.map with spares := s.map.spares.set k .allocated } ∧
      (s.requestMigration b o).events = s.events ∧
      ∀ q, s.faults.recordOf (s.home r.block) = some q →
        ∃ p, (s.requestMigration b o).faults.recordOf (s.home r.block) = some p ∧ p.state = .migrating := by
  have hreq := State.requested_eq s b o
  have hstart := State.requestMigration_starts (o := o) hacc hf hd hro hq hk
  have hhome : ({ s.requested b o with mig := { s.mig with queue := rest } } : State).home r.block = s.home r.block :=
    State.home_congr (congrArg State.map hreq) (congrArg State.pCode hreq) _
  have hmap : (s.requested b o).map = s.map := (congrArg State.map hreq).trans rfl
  have hevents : (s.requested b o).events = s.events := (congrArg State.events hreq).trans rfl
  rw [hstart]
  refine ⟨?_, ?_, ?_, fun q hrec => ?_⟩
  · rw [State.startWith_eq, hhome]
  · rw [State.startWith_eq, ← hmap]
  · rw [State.startWith_eq, ← hevents]
  · obtain ⟨p, hp⟩ := State.notice_keeps_record (b := s.home b) (before := [.observed, .unspareable])
      (after := .queued) (s := { s with mig := { s.mig with queue := s.mig.queue ++ [⟨b, o⟩] } }) hrec
    have := State.startWith_recordOf (s := { s.requested b o with mig := { s.mig with queue := rest } })
      (lam := r.block) (q := p) (by rw [hhome]; exact hp) k
    rwa [hhome] at this

theorem State.requestMigration_noSpare_fields (hq : s.mig.queue = []) (hk : s.freeSpare = none) :
    (s.requestMigration b o).mig = s.mig ∧ (s.requestMigration b o).map = s.map ∧
      (s.requestMigration b o).events = s.events.offer (abandonedRecord (s.home b) b .noSpare) := by
  obtain ⟨t, ht⟩ := State.requestMigration_noSpare (o := o) hacc hf hd hro hq hk
  rw [ht]
  exact ⟨rfl, rfl, rfl⟩

end

/-- `x` agrees with `s` in the array and in all that the migration engine reads. -/
structure SameForMigration (s x : State) : Prop where
  mig : x.mig = s.mig
  map : x.map = s.map
  pCode : x.pCode = s.pCode
  dev : x.dev = s.dev
  faults : x.faults = s.faults
  array : x.array = s.array

namespace SameForMigration

theorem openCommand (s : State) (v : Half) : SameForMigration s (s.latched.openCommand v).drawn :=
  ⟨rfl, rfl, rfl, rfl, rfl, rfl⟩

theorem complete {s x : State} (h : SameForMigration s x) (r : Result) : SameForMigration s (x.complete r) :=
  ⟨h.mig, h.map, h.pCode, h.dev, h.faults, h.array⟩

variable {s x : State} (h : SameForMigration s x) {b : Block} {o : Origin} (hacc : s.migAnswer b = .accepted)
include h

theorem home (b : Block) : x.home b = s.home b := State.home_congr h.map h.pCode b

include hacc

theorem accepted : x.migAnswer b = .accepted := by
  rwa [State.migAnswer, h.mig]

theorem request_waits (hw : s.mig.flight.isSome = true ∨ s.dev.dirReadonly = true) :
    (x.requestMigration b o).mig = { s.mig with queue := s.mig.queue ++ [⟨b, o⟩] } ∧
      (x.requestMigration b o).map = s.map ∧ (x.requestMigration b o).events = x.events := by
  rw [← h.mig, ← h.map]
  exact State.requestMigration_waits_fields (h.accepted hacc) (by rwa [h.mig, h.dev])

variable (hf : s.mig.flight = none) (hd : s.dev.state = .ready) (hro : s.dev.dirReadonly = false)
include hf hd hro

theorem request_starts {r : MigRequest} {rest : List MigRequest} {k : Nat}
    (hq : s.mig.queue ++ [⟨b, o⟩] = r :: rest) (hk : s.map.spares[k]? = some .free)
    (hk' : ∀ j, j < k → s.map.spares[j]? ≠ some .free) :
    (x.requestMigration b o).mig = { queue := rest, nextId := s.mig.nextId + 1
                                     flight := some { phase := .copy, lam := r.block, source := s.home r.block
                                                      spare := k, cursor := 0, poison := 0, attempt := 1
                                                      ident := s.mig.nextId } } ∧
      (x.requestMigration b o).map = { s.map with spares := s.map.spares.set k .allocated } ∧
      (x.requestMigration b o).events = x.events ∧
      ∀ q, s.faults.recordOf (s.home r.block) = some q →
        ∃ p, (x.requestMigration b o).faults.recordOf (s.home r.block) = some p ∧ p.state = .migrating := by
  rw [← h.home, ← h.mig, ← h.map, ← h.faults]
  refine State.requestMigration_starts_fields (h.accepted hacc) ?_ ?_ ?_ ?_ ?_
  · rw [h.mig, hf]
  · rw [h.dev, hd]
  · rw [h.dev, hro]
  · rw [h.mig, hq]
  · rw [State.freeSpare_eq_some_iff, h.map]
    exact ⟨hk, hk'⟩

theorem request_noSpare (hq : s.mig.queue = []) (hk : ∀ j : Nat, s.map.spares[j]? ≠ some .free) :
    (x.requestMigration b o).mig = s.mig ∧ (x.requestMigration b o).map = s.map ∧
      (x.requestMigration b o).events = x.events.offer (abandonedRecord (s.home b) b .noSpare) := by
  rw [← h.home, ← h.mig, ← h.map]
  refine State.requestMigration_noSpare_fields (h.accepted hacc) ?_ ?_ ?_ ?_ ?_
  · rw [h.mig, hf]
  · rw [h.dev, hd]
  · rw [h.dev, hro]
  · rw [h.mig, hq]
  · rwa [State.freeSpare_eq_none_iff, h.map]

end SameForMigration

/-- The record of a completion that follows the engine's part. -/
theorem OnlyMigration.complete_events {s t : State} (h : OnlyMigration s t) (r : Result) :
    (t.complete r).events = t.events.offer (commandDoneRecord s.cmd.field r) := by
  have hfield : t.cmd.field = s.cmd.field := congrArg (fun x => x.cmd.field) h
  rw [← hfield]
  rfl

theorem OnlyMigration.cmd {s t : State} (h : OnlyMigration s t) : t.cmd = s.cmd := (congrArg State.cmd h).trans rfl
theorem OnlyMigration.irq {s t : State} (h : OnlyMigration s t) : t.irq = s.irq := (congrArg State.irq h).trans rfl
theorem OnlyMigration.array {s t : State} (h : OnlyMigration s t) : t.array = s.array := (congrArg State.array h).trans rfl

/-- A command that completes at once, with the count of free orders raised. -/
theorem State.openCommand_complete_drawn (s : State) (v : Half) (r : Result) :
    (s.latched.openCommand v).drawn.complete r =
      { s.doneAtOnce (v.extractLsb' 0 8) r with choices := s.choices + 1 } :=
  congrArg (fun x : State => { x with choices := s.choices + 1 }) (State.openCommand_complete s v r)

/-- Settles O39: the checks, then the engine's part and the completion in either order. -/
theorem spareBlockByChecks : Obligations.SpareBlockByChecks := by
  intro s hfree hd hbl hr
  have taken {t : State} (ht : (s.latched.openCommand 0x41).takeSpareBlock = t) : exec .spareBlock s = .next t :=
    (exec_spareBlock_taken hfree).trans (congrArg Host.Outcome.next ht)
  refine ⟨fun h => ?_, fun h hs => ?_, fun b hb h hs => ?_⟩
  · exact exec_doneAtOnce (exec_spareBlock_taken hfree)
      (State.takeSpareBlock_badArg (s := s.latched.openCommand 0x41) hd h) rfl
  · exact exec_doneAtOnce (exec_spareBlock_taken hfree)
      (State.takeSpareBlock_noSpares (s := s.latched.openCommand 0x41) hd h hs) rfl
  intro joined done
  have refused {r : Result} {a : MigAnswer} (ha : s.migAnswer b = a) (hne : a ≠ .accepted) (hres : answerResult a = r) :
      exec .spareBlock s = .next { s.doneAtOnce 0x41 r with choices := s.choices + 1 } := by
    subst hres
    exact taken ((State.takeSpareBlock_refused (s := s.latched.openCommand 0x41) hd hbl hr hb h hs ha hne).trans
      (State.openCommand_complete_drawn s 0x41 (answerResult a)))
  refine ⟨fun hdup => refused (State.migAnswer_duplicate hdup) (by simp) rfl, fun hf hq hfull =>
    refused (State.migAnswer_full hf hq hfull) (by simp) rfl, fun hf hq hroom => ?_⟩
  have hacc : s.migAnswer b = .accepted := (State.migAnswer_accepted_iff s b).mpr ⟨hf, hq, hroom⟩
  rcases State.takeSpareBlock_orders (s := s.latched.openCommand 0x41) hd hr hbl hb h hs hacc with heq | heq
  · have hsame := (SameForMigration.openCommand s 0x41).complete .ok
    generalize hx : (s.latched.openCommand 0x41).drawn.complete .ok = x at heq hsame
    have hevents : x.events = done := by subst hx; rfl
    have hframe := OnlyMigration.requestMigration x b .host
    refine ⟨x.requestMigration b .host, taken heq, ?_, ?_, ?_, ?_, fun hw => ?_,
      fun r rest k hf0 hro hj hk hk' => ?_, fun hf0 hro hq0 hk => ?_⟩
    · rw [hframe.cmd, ← hx]; rfl
    · rw [hframe.cmd, ← hx]; rfl
    · rw [hframe.irq, ← hx]; rfl
    · exact hframe.array.trans hsame.array
    · rw [← hevents]
      exact hsame.request_waits hacc hw
    · rw [← hevents]
      exact hsame.request_starts hacc hf0 hd hro hj hk hk'
    · obtain ⟨hm, hmap, he⟩ := hsame.request_noSpare (o := .host) hacc hf0 hd hro hq0 hk
      exact ⟨hm, hmap, .inl (he.trans (by rw [hevents]; rfl))⟩
  · have hsame := SameForMigration.openCommand s 0x41
    generalize hx : (s.latched.openCommand 0x41).drawn = x at heq hsame
    have hevents : x.events = s.events := by subst hx; rfl
    have hfield : x.cmd.field = 0x41 := by subst hx; rfl
    have hframe := OnlyMigration.requestMigration x b .host
    have hdone := hframe.complete_events .ok
    rw [hfield] at hdone
    refine ⟨(x.requestMigration b .host).complete .ok, taken heq, rfl, rfl, rfl,
      hframe.array.trans hsame.array, fun hw => ?_, fun r rest k hf0 hro hj hk hk' => ?_, fun hf0 hro hq0 hk => ?_⟩
    · obtain ⟨hm, hmap, he⟩ := hsame.request_waits (o := .host) hacc hw
      exact ⟨hm, hmap, by rw [hdone, he, hevents]⟩
    · obtain ⟨hm, hmap, he, hrec⟩ := hsame.request_starts (o := .host) hacc hf0 hd hro hj hk hk'
      exact ⟨hm, hmap, by rw [hdone, he, hevents], hrec⟩
    · obtain ⟨hm, hmap, he⟩ := hsame.request_noSpare (o := .host) hacc hf0 hd hro hq0 hk
      refine ⟨hm, hmap, .inr ?_⟩
      rw [hdone, he, hevents]
      rfl

/-! ### CANCEL_SPARE (R153, R185) -/

section
variable {s : State} {b : Block}

theorem State.queued_eq_false_iff : (s.mig.queue.any fun r => r.block == b) = false ↔ ∀ r ∈ s.mig.queue, r.block ≠ b := by
  simp

theorem State.cancelAnswer_queued (h : ∃ r ∈ s.mig.queue, r.block = b) : s.cancelAnswer b = .ok :=
  if_pos (by simpa using h)

theorem State.cancelAnswer_flight {m : Migration} (hq : ∀ r ∈ s.mig.queue, r.block ≠ b)
    (hm : s.mig.flight = some m) (hl : m.lam = b) :
    s.cancelAnswer b = if m.phase = .commitWait then .tooLate else .ok := by
  rw [State.cancelAnswer, State.queued_eq_false_iff.mpr hq, if_neg Bool.false_ne_true, hm]
  exact if_pos hl

theorem State.cancelAnswer_notFound (hq : ∀ r ∈ s.mig.queue, r.block ≠ b)
    (hf : ∀ m, s.mig.flight = some m → m.lam ≠ b) : s.cancelAnswer b = .notFound := by
  rw [State.cancelAnswer, State.queued_eq_false_iff.mpr hq, if_neg Bool.false_ne_true]
  cases hm : s.mig.flight with
  | none => rfl
  | some m => exact if_neg (hf m hm)

theorem State.cancelMigration_queued (h : ∃ r ∈ s.mig.queue, r.block = b) : s.cancelMigration b =
    ({ s with mig := { s.mig with queue := s.mig.queue.filter fun r => r.block != b } } : State).notice
      (s.home b) [.queued] .observed := if_pos (by simpa using h)

theorem State.cancelMigration_queued_eq (h : ∃ r ∈ s.mig.queue, r.block = b) : s.cancelMigration b = { s with
    mig := { s.mig with queue := s.mig.queue.filter fun r => r.block != b }
    faults := (s.cancelMigration b).faults } := by
  rw [State.cancelMigration_queued h]
  exact State.notice_eq _ _ _ _

/-- A migration of another block, one in COMMIT_WAIT, or none in flight: nothing is cancelled. -/
theorem State.cancelMigration_none (hq : ∀ r ∈ s.mig.queue, r.block ≠ b)
    (hf : ∀ m, s.mig.flight = some m → m.lam = b → m.phase = .commitWait) : s.cancelMigration b = s := by
  rw [State.cancelMigration, State.queued_eq_false_iff.mpr hq, if_neg Bool.false_ne_true]
  cases hm : s.mig.flight with
  | none => rfl
  | some m => exact if_neg fun k => k.2 (hf m hm k.1)

theorem State.cancelMigration_flight {m : Migration} (hq : ∀ r ∈ s.mig.queue, r.block ≠ b)
    (hm : s.mig.flight = some m) (hl : m.lam = b) (hp : m.phase ≠ .commitWait) :
    s.cancelMigration b = s.abandon m .cancelled := by
  rw [State.cancelMigration, State.queued_eq_false_iff.mpr hq, if_neg Bool.false_ne_true, hm]
  exact if_pos ⟨hl, hp⟩

/-- R140: with no request queued, an abandoned migration leaves the engine IDLE. -/
theorem State.abandon_cancelled {m : Migration} (hq : s.mig.queue = []) (hk : s.map.spares[m.spare]? = some .allocated) :
    s.abandon m .cancelled = { s with
      map := { s.map with spares := s.map.spares.set m.spare .free }
      mig := { s.mig with flight := none }
      events := s.events.offer (abandonedRecord m.source m.lam .cancelled)
      faults := (s.abandon m .cancelled).faults } := by
  have hrelease : s.release m.spare = s.setSpare m.spare .free := if_pos hk
  generalize hf : (s.abandon m .cancelled).faults = f
  have h : s.abandon m .cancelled = ({ (((s.release m.spare).notice m.source (abandonedBefore .cancelled)
      (abandonedState .cancelled)).post (abandonedRecord m.source m.lam .cancelled)) with mig :=
        { (((s.release m.spare).notice m.source (abandonedBefore .cancelled)
          (abandonedState .cancelled)).post (abandonedRecord m.source m.lam .cancelled)).mig with flight := none } } :
      State) := by
    refine State.tryStart_of_empty ?_
    rw [State.notice_eq, hrelease]
    exact hq
  rw [← hf, h, State.notice_eq, hrelease]
  rfl

variable (hd : s.dev.state = .ready)
include hd

theorem State.takeCancelSpare_badArg (h : s.logicalBlocks ≤ s.cmd.arg0.toNat) :
    s.takeCancelSpare = s.complete .badArg := by
  rw [State.takeCancelSpare, if_neg (not_not_intro hd), if_pos (Nat.not_lt.mpr h)]

/-- The command's two parts: its completion and the migration engine's. -/
theorem State.takeCancelSpare_answered (hb : b.toNat = s.cmd.arg0.toNat) (h : b.toNat < s.logicalBlocks) :
    s.takeCancelSpare = s.eitherWay (fun x => x.complete (s.cancelAnswer b))
      fun x => (x.cancelMigration b).scrubSettle := by
  rw [State.takeCancelSpare, if_neg (not_not_intro hd), if_neg (not_not_intro (hb ▸ h)), argBlock_eq hb]

/-- The migration engine's part and the completion of the command, in either order. -/
theorem State.takeCancelSpare_orders (hr : s.scrub.range = none) (hbl : s.scrub.backlog = 0)
    (hb : b.toNat = s.cmd.arg0.toNat) (h : b.toNat < s.logicalBlocks) :
    s.takeCancelSpare = (s.drawn.complete (s.cancelAnswer b)).cancelMigration b ∨
      s.takeCancelSpare = (s.drawn.cancelMigration b).complete (s.cancelAnswer b) := by
  rw [State.takeCancelSpare_answered hd hb h]
  have settle (x : State) (hxr : x.scrub.range = none) (hxb : x.scrub.backlog = 0) :
      (x.cancelMigration b).scrubSettle = x.cancelMigration b :=
    (OnlyMigration.cancelMigration x b).scrubSettle_eq hxr hxb
  rcases State.eitherWay_orders s (fun x => x.complete (s.cancelAnswer b)) fun x => (x.cancelMigration b).scrubSettle
    with heq | heq
  · exact .inl (heq.trans (settle (s.drawn.complete (s.cancelAnswer b)) hr hbl))
  · exact .inr (heq.trans (congrArg (fun x => State.complete x (s.cancelAnswer b)) (settle s.drawn hr hbl)))

end

/-- Settles O40: the checks, then the engine's part and the completion in either order. -/
theorem cancelSpare : Obligations.CancelSpare := by
  have taken {s t : State} (hfree : s.commandFree) (ht : (s.latched.openCommand 0x42).takeCancelSpare = t) :
      exec .cancelSpare s = .next t := (exec_cancelSpare_taken hfree).trans (congrArg Host.Outcome.next ht)
  refine ⟨fun s hfree hd hbl hr => ⟨fun h => ?_, fun b hb h => ?_⟩,
    fun s b m hfree hd hbl hr hb h hq hm hl hp hk => ?_⟩
  · exact exec_doneAtOnce (exec_cancelSpare_taken hfree)
      (State.takeCancelSpare_badArg (s := s.latched.openCommand 0x42) hd h) rfl
  · have horders := State.takeCancelSpare_orders (s := s.latched.openCommand 0x42) hd hr hbl hb h
    have hsame := SameForMigration.openCommand s 0x42
    have hdone := State.openCommand_complete_drawn s 0x42
    have hfield : (s.latched.openCommand 0x42).drawn.cmd.field = 0x42 := rfl
    have hevents : (s.latched.openCommand 0x42).drawn.events = s.events := rfl
    have hans : (s.latched.openCommand 0x42).cancelAnswer b = s.cancelAnswer b := rfl
    generalize (s.latched.openCommand 0x42).drawn = u at *
    rw [hans] at horders
    have idle {r : Result} (hans : s.cancelAnswer b = r) (hq : ∀ r ∈ s.mig.queue, r.block ≠ b)
        (hf : ∀ m, s.mig.flight = some m → m.lam = b → m.phase = .commitWait) :
        exec .cancelSpare s = .next { s.doneAtOnce 0x42 r with choices := s.choices + 1 } := by
      subst hans
      refine taken hfree (Eq.trans ?_ (hdone _))
      rw [← hsame.mig] at hq hf
      rcases horders with heq | heq
      · exact heq.trans (State.cancelMigration_none hq hf)
      · exact heq.trans (congrArg (fun x => State.complete x _) (State.cancelMigration_none hq hf))
    refine ⟨fun hq hf => idle (State.cancelAnswer_notFound hq hf) hq fun m hm hl => absurd hl (hf m hm),
      fun m hq hm hl hp => ?_, fun hq => ?_⟩
    · refine idle ((State.cancelAnswer_flight hq hm hl).trans (if_pos hp)) hq fun m' hm' _ => ?_
      cases hm.symm.trans hm'
      exact hp
    · rw [State.cancelAnswer_queued hq] at horders
      rw [← hsame.mig] at hq ⊢
      rw [← hsame.map, ← hsame.array]
      have hrecord : (u.complete .ok).events = (s.doneAtOnce 0x42 .ok).events := by
        rw [hdone]
        rfl
      rcases horders with heq | heq
      · have hc := State.cancelMigration_queued_eq (s := u.complete .ok) hq
        refine ⟨(u.complete .ok).cancelMigration b, taken hfree heq, ?_⟩
        rw [hc]
        exact ⟨rfl, rfl, hrecord, rfl, rfl⟩
      · have hc := State.cancelMigration_queued_eq (s := u) hq
        refine ⟨(u.cancelMigration b).complete .ok, taken hfree heq, ?_⟩
        rw [hc]
        exact ⟨rfl, rfl, hrecord, rfl, rfl⟩
  · intro gone done
    have hnone : ∀ r ∈ s.mig.queue, r.block ≠ b := by simp [hq]
    have horders := State.takeCancelSpare_orders (s := s.latched.openCommand 0x42) hd hr hbl hb h
    have hans : (s.latched.openCommand 0x42).cancelAnswer b = .ok :=
      (State.cancelAnswer_flight hnone hm hl).trans (if_neg hp)
    have hsame := SameForMigration.openCommand s 0x42
    have hfield : (s.latched.openCommand 0x42).drawn.cmd.field = 0x42 := rfl
    have hevents : (s.latched.openCommand 0x42).drawn.events = s.events := rfl
    generalize (s.latched.openCommand 0x42).drawn = u at *
    rw [hans] at horders
    subst hl
    rw [← hsame.mig] at hq hm hnone
    rw [← hsame.map] at hk ⊢
    rw [← hsame.array, ← hevents]
    rcases horders with heq | heq
    · have hc := (State.cancelMigration_flight (s := u.complete .ok) hnone hm rfl hp).trans
        (State.abandon_cancelled (s := u.complete .ok) hq hk)
      refine ⟨(u.complete .ok).cancelMigration m.lam, taken hfree heq, ?_⟩
      rw [hc]
      refine ⟨rfl, hq, rfl, rfl, rfl, rfl, .inr ?_⟩
      rw [show done = commandDoneRecord u.cmd.field .ok by rw [hfield]]
      rfl
    · have hc := (State.cancelMigration_flight (s := u) hnone hm rfl hp).trans (State.abandon_cancelled (s := u) hq hk)
      refine ⟨(u.cancelMigration m.lam).complete .ok, taken hfree heq, ?_⟩
      rw [hc]
      refine ⟨rfl, hq, rfl, rfl, rfl, rfl, .inl ?_⟩
      rw [show done = commandDoneRecord u.cmd.field .ok by rw [hfield]]
      rfl

/-! ### Activation and completion of a migration (R21, R151) -/

/-- The MIGRATION_DONE record (R151). -/
def migrationDoneRecord (spare : Block) (m : Migration) : EventRecord :=
  { kind := .migrationDone, source := .migrate, phys := some spare, logical := some m.lam, offset := none
    detail := BitVec.ofNat 16 (flagsSet m.poison) }

section
variable {s : State} {m : Migration}

theorem State.spareBlock_congr {t : State} (hp : t.pCode = s.pCode) (hlen : t.map.spares.length = s.map.spares.length)
    (k : Nat) : t.spareBlock k = s.spareBlock k := by
  simp only [State.spareBlock, State.physBlocks, State.spareCount, hp, hlen]

/-- A block with no entry takes the next slot of the remap table. -/
theorem State.activate_new (h : ∀ e ∈ s.map.remap, e.logical ≠ m.lam) : s.activate m = { s with
    map := { s.map with remap := s.map.remap ++ [⟨m.lam, m.spare⟩], spares := s.map.spares.set m.spare .inUse } } := by
  have hentry : s.entryOf m.lam = none := List.find?_eq_none.mpr fun e he => by simpa using h e he
  rw [State.activate, hentry, State.mapActivate, hentry]
  rfl

/-- Where the table holds an entry of the block, that entry names the new spare and the one it named is condemned. -/
theorem State.activate_moved {old : Nat} {pre post : List RemapEntry} (hmap : s.map.remap = pre ++ ⟨m.lam, old⟩ :: post)
    (hother : ∀ e ∈ pre ++ post, e.logical ≠ m.lam) (hne : old ≠ m.spare) (hold : s.map.spares[old]? = some .inUse) :
    s.activate m = { s with
      map := { s.map with remap := pre ++ ⟨m.lam, m.spare⟩ :: post
                          spares := (s.map.spares.set m.spare .inUse).set old .condemned }
      dir := { s.dir with pendingFlag := true }
      events := s.events.offer (condemnedRecord .migrate (s.spareBlock old) old) } := by
  have hpre : ∀ e ∈ pre, e.logical ≠ m.lam := fun e he => hother e (List.mem_append_left _ he)
  have hpost : ∀ e ∈ post, e.logical ≠ m.lam := fun e he => hother e (List.mem_append_right _ he)
  have hentry : s.entryOf m.lam = some ⟨m.lam, old⟩ := by
    rw [State.entryOf, hmap, List.find?_append, List.find?_eq_none.mpr fun e he => by simpa using hpre e he]
    simp
  have hkeep (l : List RemapEntry) (hl : ∀ e ∈ l, e.logical ≠ m.lam) :
      (l.map fun e => if e.logical = m.lam then { e with spare := m.spare } else e) = l :=
    (List.map_congr_left fun e he => if_neg (hl e he)).trans (List.map_id' l)
  have hremap : (s.map.remap.map fun e => if e.logical = m.lam then { e with spare := m.spare } else e) =
      pre ++ ⟨m.lam, m.spare⟩ :: post := by
    rw [hmap, List.map_append, List.map_cons, hkeep pre hpre, hkeep post hpost, if_pos rfl]
  have hact : s.mapActivate m = { s with
      map := { s.map with remap := pre ++ ⟨m.lam, m.spare⟩ :: post, spares := s.map.spares.set m.spare .inUse } } := by
    rw [State.mapActivate, hentry, ← hremap]
    rfl
  have hspare : (s.mapActivate m).map.spares[old]? = some .inUse := by
    rw [hact]
    exact (List.getElem?_set_ne hne.symm).trans hold
  have hblock : (s.mapActivate m).spareBlock old = s.spareBlock old := by
    refine State.spareBlock_congr ?_ ?_ old <;> rw [hact]
    exact List.length_set
  simp only [State.activate, hentry, hspare, if_true, State.markCondemned, hblock]
  rw [hact]
  rfl

/-- What a completion does beside the activation, with no request queued. -/
theorem State.completeMigration_eq {u : State} (hact : s.activate m = u) (hu : u = { s with
      map := u.map, dir := u.dir, events := u.events })
    (hlen : u.map.spares.length = s.map.spares.length) (hq : s.mig.queue = []) :
    s.completeMigration m = { s with
      map := u.map
      dir := u.dir
      events := u.events.offer (migrationDoneRecord (s.spareBlock m.spare) m)
      mig := { s.mig with flight := none }
      faults := (s.completeMigration m).faults } := by
  generalize hf : (s.completeMigration m).faults = f
  have hblock : (u.notice m.source [.migrating] .retired).spareBlock m.spare = s.spareBlock m.spare := by
    refine State.spareBlock_congr ?_ ?_ _
    · rw [State.notice_pCode, hu]
    · rw [State.notice_map, hlen]
  have hend : s.completeMigration m = { (u.notice m.source [.migrating] .retired).post
      (migrationDoneRecord (s.spareBlock m.spare) m) with
        mig := { ((u.notice m.source [.migrating] .retired).post
          (migrationDoneRecord (s.spareBlock m.spare) m)).mig with flight := none } } := by
    subst hact
    rw [← hblock]
    refine State.tryStart_of_empty ?_
    show ((s.activate m).notice m.source [.migrating] .retired).mig.queue = []
    rw [State.notice_mig, hu]
    exact hq
  rw [← hf, hend, State.notice_eq, hu]
  rfl

end

/-! ### The rows MIGRATION_START and MIGRATION_COMPLETE (R142, R150, R151) -/

/-- R150: the migration that the snapshot includes completes. -/
theorem State.completeIncluded_included {s : State} {m : Migration} {r : Snapshot} (hm : s.mig.flight = some m)
    (hp : m.phase = .commitWait) (hr : s.dir.snapshot = some r) (hinc : r.included = some m.ident) :
    s.completeIncluded = s.completeMigration m := by
  rw [State.completeIncluded, hm]
  refine if_pos ⟨hp, ?_⟩
  rw [hr]
  exact hinc

theorem exec_migrationStart_due {s : State} (hrun : s.rangeRuns = false) (hr : s.scrub.range = none)
    (hb : s.scrub.backlog = 0) (hdue : s.startDue = true) : exec .migrationStart s = .next s.tryStart := by
  refine congrArg Host.Outcome.next ((if_pos hdue).trans ((State.withSettle_quiet hrun _).trans ?_))
  exact (OnlyMigration.tryStart s).scrubSettle_eq hr hb

theorem exec_migrationComplete_due {s : State} {m : Migration} {x : Copy} {r : Snapshot} (hrun : s.rangeRuns = false)
    (hr : s.scrub.range = none) (hb : s.scrub.backlog = 0) (hd : s.dev.state = .ready) (hi : s.dir.state = .idle)
    (hm : s.mig.flight = some m) (hp : m.phase = .commitWait) (ht : s.dir.target = some x)
    (hs : s.dir.snapshot = some r) (hinc : r.included = some m.ident) (hgen : s.dir.gen = r.gen)
    (hk : s.dir.known x = ⟨true, r.gen⟩) (hscrub : (s.completeMigration m).scrub = s.scrub) :
    exec .migrationComplete s = .next (s.completeMigration m) := by
  have hdue : s.includedDone = true := by simp [State.includedDone, hi, hd, hs, ht, hk, hgen]
  refine congrArg Host.Outcome.next ((if_pos hdue).trans ((State.withSettle_quiet hrun _).trans ?_))
  rw [State.completeIncluded_included hm hp hs hinc]
  exact State.scrubSettle_spent (by rw [hscrub, hr]) (by rw [hscrub, hb])

/-- Settles O54: the start, and the completion with a new entry and over an existing one. -/
theorem migrationStartsAndCompletes : Obligations.MigrationStartsAndCompletes := by
  intro s hrun hr hb hd hi
  refine ⟨fun b o rest k hf hro hq hk hk' => ?_, fun m x r hm hp hq ht hs hinc hgen hknown hnew => ?_,
    fun m x r old pre post hm hp hq ht hs hinc hgen hknown hremap hother hne hold => ?_⟩
  · have hdue : s.startDue = true := State.startDue_iff.mpr ⟨hf, hd, hro, by simp [hq]⟩
    have hstart := State.tryStart_starts hf hd hro hq (State.freeSpare_eq_some_iff.mpr ⟨hk, hk'⟩)
    have heq := State.startWith_eq ({ s with mig := { s.mig with queue := rest } } : State) b k
    refine ⟨_, (exec_migrationStart_due hrun hr hb hdue).trans (congrArg Host.Outcome.next hstart), ?_⟩
    rw [heq]
    exact ⟨rfl, rfl, rfl⟩
  · have hact := State.activate_new hnew
    have heq := State.completeMigration_eq hact rfl List.length_set hq
    refine ⟨_, exec_migrationComplete_due hrun hr hb hd hi hm hp ht hs hinc hgen hknown (by rw [heq]), ?_⟩
    rw [heq]
    exact ⟨rfl, rfl, rfl, rfl⟩
  · have hact := State.activate_moved hremap hother hne hold
    have heq := State.completeMigration_eq hact rfl (List.length_set.trans List.length_set) hq
    refine ⟨_, exec_migrationComplete_due hrun hr hb hd hi hm hp ht hs hinc hgen hknown (by rw [heq]), ?_⟩
    rw [heq]
    exact ⟨rfl, rfl, rfl, rfl, rfl⟩

/-! ### What is skipped after an event (R107) -/

section
variable {s t : State}

theorem State.skipped_iff {b : Block} : s.skipped b = true ↔ s.roleOf b = .retired ∨
    (∃ k, s.roleOf b = .spare k .condemned ∨ s.roleOf b = .spare k .allocated) ∨
      ∃ c, s.roleOf b = .copy c ∧ s.dir.state ≠ .idle ∧ s.dir.target = some c := by
  unfold State.skipped
  cases s.roleOf b with
  | spare k st => cases st <;> simp
  | data | retired | copy | unassigned => simp

/-- The roles after one spare takes another state. -/
theorem State.roleOf_setSpare {k : Nat} {st : SpareState}
    (hmap : t.map = { s.map with spares := s.map.spares.set k st }) (hp : t.pCode = s.pCode) (b : Block) :
    t.roleOf b = s.roleOf b ∨ t.roleOf b = .spare k st := by
  unfold State.roleOf State.entryOf State.logicalBlocks State.spareCount State.physBlocks
  rw [hmap, hp, List.length_set]
  dsimp only
  generalize (if s.map.loaded = true then blocksOf s.pCode - 2 - s.map.spares.length else 0) = l
  by_cases hb : b.toNat = blocksOf s.pCode - 1
  · exact .inl (by rw [if_pos hb, if_pos hb])
  by_cases ha : b.toNat = blocksOf s.pCode - 2
  · exact .inl (by rw [if_neg hb, if_neg hb, if_pos ha, if_pos ha])
  rw [if_neg hb, if_neg hb, if_neg ha, if_neg ha, List.getElem?_set]
  by_cases hk : k = b.toNat - l
  · subst hk
    rw [if_pos rfl]
    split
    · exact .inl rfl
    split
    · exact .inl rfl
    by_cases hlt : b.toNat - l < s.map.spares.length
    · rw [if_pos hlt]
      exact .inr rfl
    · rw [if_neg hlt, List.getElem?_eq_none (Nat.not_lt.mp hlt)]
      exact .inl rfl
  · rw [if_neg hk]
    exact .inl rfl

/-- A block that is visited stays so while the map stays and no other directory copy becomes a commit's target. -/
theorem State.visited_of_dir (hmap : t.map = s.map) (hp : t.pCode = s.pCode)
    (hdir : ∀ c, t.dir.state ≠ .idle → t.dir.target = some c → s.dir.state ≠ .idle ∧ s.dir.target = some c) {b : Block}
    (h : s.skipped b = false) : t.skipped b = false := by
  rw [← Bool.not_eq_true, State.skipped_iff] at h ⊢
  rw [State.roleOf_congr hmap hp]
  rintro (hr | hk | ⟨c, hc, hs, ht⟩)
  · exact h (.inl hr)
  · exact h (.inr (.inl hk))
  · exact h (.inr (.inr ⟨c, hc, hdir c hs ht⟩))

/-- A spare that becomes FREE or IN_USE is visited, and no other block changes. -/
theorem State.visited_of_setSpare {k : Nat} {st : SpareState} (hst : st = .free ∨ st = .inUse)
    (hmap : t.map = { s.map with spares := s.map.spares.set k st }) (hp : t.pCode = s.pCode)
    (hdir : ∀ c, t.dir.state ≠ .idle → t.dir.target = some c → s.dir.state ≠ .idle ∧ s.dir.target = some c) {b : Block}
    (h : s.skipped b = false) : t.skipped b = false := by
  rw [← Bool.not_eq_true, State.skipped_iff] at h ⊢
  rcases State.roleOf_setSpare hmap hp b with hrole | hrole
  · rw [hrole]
    rintro (hr | hk | ⟨c, hc, hs, ht⟩)
    · exact h (.inl hr)
    · exact h (.inr (.inl hk))
    · exact h (.inr (.inr ⟨c, hc, hdir c hs ht⟩))
  · rw [hrole]
    rcases hst with rfl | rfl <;> simp

/-! ### Slices passed over with no SCRUB_PASS event (R105, R107) -/

theorem State.completeSlice_scrub (h : s.scrub.passEvent = false) :
    ∃ c, s.completeSlice = { s with scrub := c } ∧ c.passEvent = false := by
  unfold State.completeSlice
  dsimp only
  split
  · rw [if_neg (by simp [h])]
    exact ⟨_, rfl, h⟩
  · exact ⟨_, rfl, h⟩

theorem skipSlices_scrub (n : Nat) (h : s.scrub.passEvent = false) : ∃ c, skipSlices n s = { s with scrub := c } := by
  induction n generalizing s with
  | zero => exact ⟨_, rfl⟩
  | succ n ih =>
    rw [skipSlices]
    split
    · obtain ⟨c, hc, hpass⟩ := State.completeSlice_scrub h
      obtain ⟨d, hd⟩ := ih (s := s.completeSlice) (by rw [hc]; exact hpass)
      exact ⟨d, hd.trans (by rw [hc])⟩
    · exact ⟨_, rfl⟩

theorem State.scrubSettle_scrub (hr : s.scrub.range = none) (h : s.scrub.passEvent = false) :
    ∃ c, s.scrubSettle = { s with scrub := c } := by
  unfold State.scrubSettle
  split
  · exact ⟨_, rfl⟩
  · rw [skipBlocks_none hr]
    exact skipSlices_scrub _ h

/-! ### The end of a grant (R95) -/

/-- The end of a grant after which nothing stands to be passed over. -/
theorem State.completeKind_served {g : Grant} {k : Grant → Bool} (hq : s.quietEnd) (hg : s.port.grant = some g)
    (hk : k g = true) (ht : s.clearGrant.completion g = t) (hport : t.port.stopped = s.port.stopped)
    (hscrub : t.scrub = s.scrub) (hskip : t.skipped s.scrub.block = false) : s.completeKind k = t := by
  obtain ⟨hs, -, hcmd, hr, -⟩ := hq
  subst ht
  rw [State.completeKind_of hg hk]
  exact State.finish_quiet hcmd (hport.trans hs) (hscrub ▸ hr) (hscrub ▸ hskip)

/-- The end of a grant after which slices may be passed over, with no SCRUB_PASS event. -/
theorem State.completeKind_passed {g : Grant} {k : Grant → Bool} (hcmd : s.rangeRuns = false)
    (hs : s.port.stopped = false) (hr : s.scrub.range = none) (hpass : s.scrub.passEvent = false)
    (hg : s.port.grant = some g) (hk : k g = true) (ht : s.clearGrant.completion g = t)
    (hport : t.port.stopped = s.port.stopped) (hscrub : t.scrub = s.scrub) :
    ∃ c, s.completeKind k = { t with scrub := c } := by
  subst ht
  obtain ⟨c, hc⟩ := State.scrubSettle_scrub (s := s.clearGrant.completion g) (by rw [hscrub, hr]) (by rw [hscrub, hpass])
  have hrun : s.clearGrant.rangeRuns = false := hcmd
  refine ⟨c, ?_⟩
  rw [State.completeKind_of hg hk, State.finish, State.rangeEvent_quiet hrun, hc]
  exact State.fenceIfDue_running (hport.trans hs)

end

/-! ### The commit unit's own grants (R45, R46) -/

section
variable {s : State}

theorem State.dirWritten_next (h : s.dir.word ≠ 255) :
    s.dirWritten = { s with dir := { s.dir with word := s.dir.word + 1 } } := if_neg h

theorem State.dirWritten_last (h : s.dir.word = 255) :
    s.dirWritten = { s with dir := { s.dir with word := 0, state := .readback } } := if_pos h

/-- What the attempt wrote at the word read back. -/
def State.attempted (s : State) (r : Snapshot) : Word := if s.dir.word = 0 then 0 else r.wordAt s.dir.word.toNat

theorem readbackPasses_fresh (d expected : Word) :
    readbackPasses (decodeWord (freshWord d)) expected = decide (d = expected) := by
  rw [decodeWord_fresh]
  exact Bool.beq_eq_decide_eq d expected

theorem State.dirReadBack_fresh {r : Snapshot} (hr : s.dir.snapshot = some r) (d : Word) :
    s.dirReadBack (decodeWord (freshWord d)) = if d = s.attempted r then
      { s with dir := if s.dir.word = 255 then { s.dir with closing := true }
                      else { s.dir with word := s.dir.word + 1 } }
    else s.attemptFailed := by
  have hpass : readbackPasses (decodeWord (freshWord d))
      ((s.dir.snapshot.getD Snapshot.none).attemptWord s.dir.word.toNat) = Decidable.decide (d = s.attempted r) := by
    rw [hr, Option.getD_some, Snapshot.attemptWord_toNat]
    exact readbackPasses_fresh d (s.attempted r)
  rw [State.dirReadBack, hpass]
  by_cases hd : d = s.attempted r
  · rw [if_pos (decide_eq_true hd), if_pos hd]
    by_cases hw : s.dir.word = 255
    · rw [if_pos hw, if_pos hw]
    · rw [if_neg hw, if_neg hw]
  · rw [if_neg (by simpa using hd), if_neg hd]

theorem State.attemptFailed_again (h : s.dir.attempt < 3) : s.attemptFailed = { s with
    dir := { s.dir with attempt := s.dir.attempt + 1, word := 0, state := .writing, closing := false } } := if_pos h

theorem State.attemptFailed_third {x : Copy} (h : s.dir.attempt = 3) (hx : s.dir.target = some x) :
    s.attemptFailed = s.failCommit (commitRecord .commitFailed (some (s.copyBlock x)) 3) := by
  rw [State.attemptFailed, if_neg (by omega), hx]
  rfl

/-! ### What the command engine hears of a commit (R47 step 4, R48 step 6) -/

theorem State.tellCommitFailure_frame (s : State) : s.tellCommitFailure = { s with
    cmd := s.tellCommitFailure.cmd, irq := s.tellCommitFailure.irq, events := s.tellCommitFailure.events } := by
  unfold State.tellCommitFailure
  split <;> rfl

theorem State.tellCommitFailure_idle (h : s.cmd.running = none) : s.tellCommitFailure = s := by
  rw [State.tellCommitFailure, h]

theorem State.tellCommitSuccess_frame (s : State) : s.tellCommitSuccess = { s with
    cmd := s.tellCommitSuccess.cmd, irq := s.tellCommitSuccess.irq, events := s.tellCommitSuccess.events } := by
  unfold State.tellCommitSuccess
  split <;> rfl

theorem State.tellCommitSuccess_idle (h : s.cmd.running = none) : s.tellCommitSuccess = s := by
  rw [State.tellCommitSuccess, h]

theorem State.tellCommitSuccess_waiting (h : s.cmd.running = some (.commit false)) :
    s.tellCommitSuccess = s.complete .ok := by
  rw [State.tellCommitSuccess, h]

/-! ### A failed commit with a migration waiting (R48, R152) -/

/-- R140: with DIR_READONLY set no start follows an abandonment. -/
theorem State.abandon_commitFailed {m : Migration} (hro : s.dev.dirReadonly = true)
    (hk : s.map.spares[m.spare]? = some .allocated) : s.abandon m .commitFailed = { s with
      map := { s.map with spares := s.map.spares.set m.spare .free }
      mig := { s.mig with flight := none }
      events := s.events.offer (abandonedRecord m.source m.lam .commitFailed)
      faults := (s.abandon m .commitFailed).faults } := by
  have hrelease : s.release m.spare = s.setSpare m.spare .free := if_pos hk
  generalize hf : (s.abandon m .commitFailed).faults = f
  have h : s.abandon m .commitFailed = ({ (((s.release m.spare).notice m.source (abandonedBefore .commitFailed)
      (abandonedState .commitFailed)).post (abandonedRecord m.source m.lam .commitFailed)) with mig :=
        { (((s.release m.spare).notice m.source (abandonedBefore .commitFailed)
          (abandonedState .commitFailed)).post (abandonedRecord m.source m.lam .commitFailed)).mig with
            flight := none } } : State) := by
    refine State.tryStart_of_readonly ?_
    rw [State.notice_eq, hrelease]
    exact hro
  rw [← hf, h, State.notice_eq, hrelease]
  rfl

theorem State.abandonWaiting_of_some {m : Migration} (hm : s.mig.flight = some m) (hp : m.phase = .commitWait) :
    s.abandonWaiting = s.abandon m .commitFailed := by
  simp only [State.abandonWaiting, hm, hp, if_true]

/-- A failed commit has taken the waiting migration with it; f is the fault table after the notice. -/
def State.commitLost (s : State) (m : Migration) (r : EventRecord) (f : FaultTable) : State :=
  { s with
    map := { s.map with spares := s.map.spares.set m.spare .free }
    mig := { s.mig with flight := none }
    dev := { s.dev with dirReadonly := true }
    dir := { s.dir with pendingFlag := false }
    events := (s.events.offer r).offer (abandonedRecord m.source m.lam .commitFailed)
    faults := f }

theorem State.failCommit_waiting {m : Migration} (hm : s.mig.flight = some m) (hp : m.phase = .commitWait)
    (hk : s.map.spares[m.spare]? = some .allocated) (r : EventRecord) :
    ∃ f, s.failCommit r = (s.commitLost m r f).tellCommitFailure.commitIdle := by
  refine ⟨((s.setReadonly.post r).abandon m .commitFailed).faults, ?_⟩
  rw [State.failCommit, State.abandonWaiting_of_some (s := s.setReadonly.post r) hm hp,
    State.abandon_commitFailed (s := s.setReadonly.post r) rfl hk]
  rfl

/-! ### A commit that succeeds (R47) -/

theorem CommitUnit.setKnown_frame (d : CommitUnit) (c : Copy) (k : CopyKnown) : d.setKnown c k = { d with
    copyA := (d.setKnown c k).copyA, copyB := (d.setKnown c k).copyB } := by
  cases c <;> rfl

/-- The commit unit once the closing write of copy x has completed. -/
def State.succeededDir (s : State) (x : Copy) : CommitUnit :=
  ({ s.dir with gen := s.dir.gen + 1 } : CommitUnit).setKnown x ⟨true, s.dir.gen + 1⟩

theorem State.succeededDir_frame (s : State) (x : Copy) : s.succeededDir x = { s.dir with
    gen := s.dir.gen + 1, copyA := (s.succeededDir x).copyA, copyB := (s.succeededDir x).copyB } :=
  CommitUnit.setKnown_frame _ _ _

/-- The records of a successful commit: COMMIT_DONE, when its event is enabled. -/
def State.doneEvents (s : State) (x : Copy) : Events :=
  if s.spareCtrl.commitDoneEvent then
    s.events.offer (commitRecord .commitDone (some (s.copyBlock x)) ((s.dir.gen + 1).extractLsb' 0 16))
  else s.events

theorem State.postCommitDone_recordCommit {x : Copy} (hx : s.dir.target = some x) :
    s.recordCommit.postCommitDone = { s with dir := s.succeededDir x, events := s.doneEvents x } := by
  have hrec : s.recordCommit = { s with dir := s.succeededDir x } := by rw [State.recordCommit, hx]; rfl
  have htarget : (s.succeededDir x).target = some x := (congrArg CommitUnit.target (s.succeededDir_frame x)).trans hx
  have hgen : (s.succeededDir x).gen = s.dir.gen + 1 := congrArg CommitUnit.gen (s.succeededDir_frame x)
  rw [State.postCommitDone, hrec, State.doneEvents]
  dsimp only
  by_cases h : s.spareCtrl.commitDoneEvent = true
  · rw [if_pos h, if_pos h, htarget, hgen, BitVec.setWidth_eq_extractLsb' (by omega)]
    rfl
  · rw [if_neg h, if_neg h]

theorem State.commitSuccess_eq {x : Copy} (hx : s.dir.target = some x) : s.commitSuccess =
    ({ s with dir := s.succeededDir x, events := s.doneEvents x } : State).completeIncluded.tellCommitSuccess.nextCommit := by
  rw [State.commitSuccess, State.postCommitDone_recordCommit hx]

theorem State.completeIncluded_none (h : s.mig.flight = none) : s.completeIncluded = s := by
  simp only [State.completeIncluded, h]

/-- A migration that the snapshot does not include waits on. -/
theorem State.completeIncluded_other
    (h : ∀ m, s.mig.flight = some m → ∀ q, s.dir.snapshot = some q → q.included ≠ some m.ident) :
    s.completeIncluded = s := by
  unfold State.completeIncluded
  cases hf : s.mig.flight with
  | none => rfl
  | some m =>
    refine if_neg fun ⟨_, hinc⟩ => ?_
    obtain ⟨q, hq, hqi⟩ := Option.bind_eq_some_iff.mp hinc
    exact h m hf q hq hqi

theorem State.nextCommit_idle (h : s.dir.pendingFlag = false) : s.nextCommit = s.commitIdle := by
  simp [State.nextCommit, h]

theorem State.advanceWait_frame (s : State) : s.advanceWait = { s with cmd := s.advanceWait.cmd } := by
  unfold State.advanceWait
  split <;> rfl

theorem State.advanceWait_idle (h : s.cmd.running = none) : s.advanceWait = s := by
  simp only [State.advanceWait, h]

/-- The commit unit as the commit of the pending flag starts. -/
def State.furtherDir (s : State) : CommitUnit :=
  ({ s with dir := { s.dir with pendingFlag := false } } : State).startedDir

theorem State.nextCommit_starts (h : s.dir.pendingFlag = true) (hgen : s.dir.gen ≠ 0xFFFFFFFF) :
    s.nextCommit = { s with cmd := s.advanceWait.cmd, dir := s.furtherDir } := by
  rw [State.nextCommit, if_pos h]
  dsimp only
  rw [s.advanceWait_frame]
  exact State.startCommit_started
    (s := ({ s with cmd := s.advanceWait.cmd, dir := { s.dir with pendingFlag := false } } : State)) hgen

theorem State.furtherDir_pendingFlag (s : State) : s.furtherDir.pendingFlag = false :=
  State.startedDir_pendingFlag ({ s with dir := { s.dir with pendingFlag := false } } : State)

theorem State.furtherDir_gen (s : State) : s.furtherDir.gen = s.dir.gen :=
  State.startedDir_gen ({ s with dir := { s.dir with pendingFlag := false } } : State)

/-- The start of the further commit: nothing waits for it in the snapshot. -/
theorem State.furtherDir_alone (h : s.waitingMigration = none) : s.furtherDir.snapshot = some
    { gen := s.dir.gen + 1, blocks := s.physBlocks, entries := s.map.remap
      spares := s.map.spares.map fun st => if st = .allocated then .free else st, included := none } := by
  let u : State := { s with dir := { s.dir with pendingFlag := false } }
  show some (u.takeSnapshot (s.dir.gen + 1)) = _
  rw [State.takeSnapshot, State.snapshotEntries_alone (s := u) h, State.snapshotSpares_alone (s := u) h,
    show u.waitingMigration = none from h]
  rfl

/-- The commit has succeeded and the migration m that it includes has completed, with a new entry; f is the fault
table after the notice. -/
def State.migrationLanded (s : State) (x : Copy) (m : Migration) (f : FaultTable) : State :=
  { s with
    dir := s.succeededDir x
    map := { s.map with remap := s.map.remap ++ [⟨m.lam, m.spare⟩], spares := s.map.spares.set m.spare .inUse }
    mig := { s.mig with flight := none }
    events := (s.doneEvents x).offer (migrationDoneRecord (s.spareBlock m.spare) m)
    faults := f }

theorem State.commitSuccess_lands {x : Copy} {m : Migration} {r : Snapshot} (hx : s.dir.target = some x)
    (hr : s.dir.snapshot = some r) (hm : s.mig.flight = some m) (hp : m.phase = .commitWait)
    (hinc : r.included = some m.ident) (hq : s.mig.queue = []) (hnew : ∀ e ∈ s.map.remap, e.logical ≠ m.lam) :
    ∃ f, s.commitSuccess = (s.migrationLanded x m f).tellCommitSuccess.nextCommit := by
  let u : State := { s with dir := s.succeededDir x, events := s.doneEvents x }
  have hsnap : u.dir.snapshot = some r := (congrArg CommitUnit.snapshot (s.succeededDir_frame x)).trans hr
  refine ⟨(u.completeMigration m).faults, ?_⟩
  rw [State.commitSuccess_eq hx, State.completeIncluded_included (s := u) hm hp hsnap hinc,
    State.completeMigration_eq (s := u) (State.activate_new (s := u) hnew) rfl List.length_set hq]
  rfl

/-- The same with an entry of the block in the table: it takes the new spare and the old one is condemned. -/
def State.migrationMoved (s : State) (x : Copy) (m : Migration) (old : Nat) (remap : List RemapEntry)
    (f : FaultTable) : State :=
  { s with
    dir := { s.succeededDir x with pendingFlag := true }
    map := { s.map with remap := remap, spares := (s.map.spares.set m.spare .inUse).set old .condemned }
    mig := { s.mig with flight := none }
    events := ((s.doneEvents x).offer (condemnedRecord .migrate (s.spareBlock old) old)).offer
      (migrationDoneRecord (s.spareBlock m.spare) m)
    faults := f }

theorem State.commitSuccess_moves {x : Copy} {m : Migration} {r : Snapshot} {old : Nat} {pre post : List RemapEntry}
    (hx : s.dir.target = some x) (hr : s.dir.snapshot = some r) (hm : s.mig.flight = some m) (hp : m.phase = .commitWait)
    (hinc : r.included = some m.ident) (hq : s.mig.queue = []) (hmap : s.map.remap = pre ++ ⟨m.lam, old⟩ :: post)
    (hother : ∀ e ∈ pre ++ post, e.logical ≠ m.lam) (hne : old ≠ m.spare) (hold : s.map.spares[old]? = some .inUse) :
    ∃ f, s.commitSuccess =
      (s.migrationMoved x m old (pre ++ ⟨m.lam, m.spare⟩ :: post) f).tellCommitSuccess.nextCommit := by
  let u : State := { s with dir := s.succeededDir x, events := s.doneEvents x }
  have hsnap : u.dir.snapshot = some r := (congrArg CommitUnit.snapshot (s.succeededDir_frame x)).trans hr
  refine ⟨(u.completeMigration m).faults, ?_⟩
  rw [State.commitSuccess_eq hx, State.completeIncluded_included (s := u) hm hp hsnap hinc,
    State.completeMigration_eq (s := u) (State.activate_moved (s := u) hmap hother hne hold) rfl
      (List.length_set.trans List.length_set) hq]
  rfl

/-! ### The rows of a commit's grants -/

/-- The grant in progress has read a, and is over. -/
abbrev State.readOver (s : State) (a : Addr) : State := s.granted [.read (s.maOf a)]

/-- The grant in progress has written c at a, and is over. -/
abbrev State.writeOver (s : State) (a : Addr) (c : Codeword) : State :=
  { s.granted [.write (s.maOf a) c] with array := s.array.put (s.maOf a).toNat c }

/-- A block that is visited stays so while the map stays and no commit is in progress. -/
theorem State.visited_of_idle {t : State} (hi : t.dir.state = .idle) (hmap : t.map = s.map) (hp : t.pCode = s.pCode)
    {b : Block} (h : s.skipped b = false) : t.skipped b = false :=
  State.visited_of_dir hmap hp (fun _ hs _ => absurd hi hs) h

/-- A grant of the commit after which the commit is still in progress, with its target. -/
theorem State.completeKind_committing {g : Grant} {k : Grant → Bool} {t : State} (hq : s.quietEnd)
    (hi : s.dir.state ≠ .idle) (hg : s.port.grant = some g) (hk : k g = true) (ht : s.clearGrant.completion g = t)
    (hport : t.port.stopped = s.port.stopped) (hscrub : t.scrub = s.scrub) (hmap : t.map = s.map)
    (hp : t.pCode = s.pCode) (htarget : t.dir.target = s.dir.target) : s.completeKind k = t :=
  State.completeKind_served hq hg hk ht hport hscrub
    (State.visited_of_dir hmap hp (fun _ _ hc => ⟨hi, htarget.symm.trans hc⟩) hq.2.2.2.2)

/-- The third failed attempt with no migration in flight and no command in progress. -/
theorem State.thirdAttempt_alone {x : Copy} (h : s.dir.attempt = 3) (hx : s.dir.target = some x)
    (hm : s.mig.flight = none) (hc : s.cmd.running = none) : s.attemptFailed = { s with
      dir := { s.dir with state := .idle, pendingFlag := false, closing := false }
      dev := { s.dev with dirReadonly := true }
      events := s.events.offer (commitRecord .commitFailed (some (s.copyBlock x)) 3) } := by
  have hwait : s.waitingMigration = none := by rw [State.waitingMigration, hm, Option.filter_none]
  rw [State.attemptFailed_third h hx, State.failCommit_alone hwait,
    State.tellCommitFailure_idle (s := { s.setReadonly.post _ with dir := { s.dir with pendingFlag := false } }) hc]
  rfl

/-- What a failed commit with a waiting migration leaves. -/
theorem State.readback_loses {m : Migration} {x : Copy} {a : Addr} {k : Grant → Bool} (hq : s.quietEnd)
    (hg : s.port.grant = some (.dirRead a)) (hk : k (.dirRead a) = true)
    (hfail : s.clearGrant.completion (.dirRead a) = (s.readOver a).attemptFailed) (h : s.dir.attempt = 3)
    (hx : s.dir.target = some x) (hm : s.mig.flight = some m) (hp : m.phase = .commitWait)
    (ha : s.map.spares[m.spare]? = some .allocated) : ∃ f, s.completeKind k = ((s.readOver a).commitLost m
      (commitRecord .commitFailed (some (s.copyBlock x)) 3) f).tellCommitFailure.commitIdle := by
  obtain ⟨f, hf⟩ := State.failCommit_waiting (s := s.readOver a) hm hp ha
    (commitRecord .commitFailed (some (s.copyBlock x)) 3)
  refine ⟨f, State.completeKind_served hq hg hk (hfail.trans ((State.attemptFailed_third (s := s.readOver a) h hx).trans hf))
    ?_ ?_ ?_⟩
  · rw [State.tellCommitFailure_frame]; rfl
  · rw [State.tellCommitFailure_frame]; rfl
  · refine State.visited_of_setSpare (s := s) (k := m.spare) (st := .free) (.inl rfl) ?_ ?_
      (fun _ hi _ => absurd rfl hi) hq.2.2.2.2
    · rw [State.tellCommitFailure_frame]; rfl
    · rw [State.tellCommitFailure_frame]; rfl

theorem State.completion_dirClose (a : Addr) (c : Codeword) :
    s.clearGrant.completion (.dirClose a c) = (s.writeOver a c).commitSuccess := rfl

/-- The end of a closing write with the pending flag clear and no migration in flight. -/
theorem State.commitSuccess_alone {x : Copy} (hx : s.dir.target = some x) (hf : s.dir.pendingFlag = false)
    (hm : s.mig.flight = none) (hc : s.cmd.running = none) : s.commitSuccess = { s with
      dir := { s.succeededDir x with state := .idle, pendingFlag := false, closing := false }
      events := s.doneEvents x } := by
  let u : State := { s with dir := s.succeededDir x, events := s.doneEvents x }
  have hflag : u.dir.pendingFlag = false := (congrArg CommitUnit.pendingFlag (s.succeededDir_frame x)).trans hf
  rw [State.commitSuccess_eq hx, State.completeIncluded_none (s := u) hm, State.tellCommitSuccess_idle (s := u) hc,
    State.nextCommit_idle (s := u) hflag]
  rfl

/-- A commit that the pending flag asks for starts at the end of a closing write. -/
theorem State.tellCommitSuccess_nextCommit (h : s.dir.pendingFlag = true) (hgen : s.dir.gen ≠ 0xFFFFFFFF) :
    s.tellCommitSuccess.nextCommit = { s with
      cmd := s.tellCommitSuccess.advanceWait.cmd, irq := s.tellCommitSuccess.irq, events := s.tellCommitSuccess.events
      dir := s.furtherDir } := by
  generalize hu : s.tellCommitSuccess = u
  have hframe : u = { s with cmd := u.cmd, irq := u.irq, events := u.events } := by
    subst hu
    exact s.tellCommitSuccess_frame
  have hdir : u.dir = s.dir := by rw [hframe]
  have hfurther : u.furtherDir = s.furtherDir := by rw [hframe]; rfl
  rw [State.nextCommit_starts (s := u) (by rw [hdir, h]) (by rw [hdir]; exact hgen), hfurther]
  generalize u.advanceWait.cmd = c
  rw [hframe]

theorem State.tellCommitSuccess_nextCommit_idle (h : s.dir.pendingFlag = false) :
    s.tellCommitSuccess.nextCommit = { s with
      cmd := s.tellCommitSuccess.cmd, irq := s.tellCommitSuccess.irq, events := s.tellCommitSuccess.events
      dir := { s.dir with state := .idle, pendingFlag := false, closing := false } } := by
  generalize hu : s.tellCommitSuccess = u
  have hframe : u = { s with cmd := u.cmd, irq := u.irq, events := u.events } := by
    subst hu
    exact s.tellCommitSuccess_frame
  rw [State.nextCommit_idle (s := u) (by rw [hframe]; exact h), State.commitIdle]
  rw [hframe]

theorem State.completion_dirRead {r : Snapshot} {a : Addr} {d : Word} (hr : s.dir.snapshot = some r)
    (hcell : s.cell a = freshWord d) : s.clearGrant.completion (.dirRead a) = if d = s.attempted r then
      { s.readOver a with dir := if s.dir.word = 255 then { s.dir with closing := true }
                                 else { s.dir with word := s.dir.word + 1 } }
    else (s.readOver a).attemptFailed := by
  have h := State.dirReadBack_fresh (s := s.readOver a) hr d
  rw [← hcell] at h
  exact h

/-- The end of a grant with no credit left to spend. -/
theorem State.completeKind_spent {g : Grant} {k : Grant → Bool} {t : State} (hrun : s.rangeRuns = false)
    (hs : s.port.stopped = false) (hr : s.scrub.range = none) (hb : s.scrub.backlog = 0) (hg : s.port.grant = some g)
    (hk : k g = true) (ht : s.clearGrant.completion g = t) (hport : t.port.stopped = s.port.stopped)
    (hscrub : t.scrub = s.scrub) : s.completeKind k = t := by
  subst ht
  have hrun' : s.clearGrant.rangeRuns = false := hrun
  rw [State.completeKind_of hg hk, State.finish, State.rangeEvent_quiet hrun',
    State.scrubSettle_spent (by rw [hscrub, hr]) (by rw [hscrub, hb])]
  exact State.fenceIfDue_running (hport.trans hs)

theorem exec_commitStart_due (hrun : s.rangeRuns = false) (hr : s.scrub.range = none) (hb : s.scrub.backlog = 0)
    (hdue : s.commitStartDue = true) (hscrub : s.nextCommit.scrub = s.scrub) :
    exec .commitStart s = .next s.nextCommit := by
  refine congrArg Host.Outcome.next ((if_pos hdue).trans ((State.withSettle_quiet hrun _).trans ?_))
  exact State.scrubSettle_spent (by rw [hscrub, hr]) (by rw [hscrub, hb])

end

/-- Settles O60. -/
theorem commitAdvances : Obligations.CommitAdvances := by
  refine ⟨fun s x r a c d hq hx hr hi => ?_, fun s hrun hrange hb hd hflag hgen => ⟨fun hidle hro => ?_,
    fun a c y hg hstop _ hy hm hgen' => ?_⟩⟩
  · have hvisit := hq.2.2.2.2
    refine ⟨fun hg hw => ?_, fun hg hw => ?_, fun hg hcell hd => ?_, fun hg hcell hd ha => ?_, fun hg hcell hd ha =>
      ⟨fun hm hc => ?_, fun m hm hp hk => ?_⟩, fun hg hf hm hc => ?_, fun m hg hf hm hp hinc hqueue hnew hpass => ?_,
      fun m old pre post hg hm hp hinc hqueue hmap hother hne hold hgen hpass => ?_⟩
    · exact congrArg Host.Outcome.next (State.completeKind_committing hq hi hg rfl
        (State.dirWritten_next (s := s.writeOver a c) hw) rfl rfl rfl rfl rfl)
    · exact congrArg Host.Outcome.next (State.completeKind_committing hq hi hg rfl
        (State.dirWritten_last (s := s.writeOver a c) hw) rfl rfl rfl rfl rfl)
    · refine congrArg Host.Outcome.next (State.completeKind_committing hq hi hg rfl
        ((State.completion_dirRead hr hcell).trans (if_pos hd)) rfl rfl rfl rfl ?_)
      dsimp only
      split <;> rfl
    · exact congrArg Host.Outcome.next (State.completeKind_committing hq hi hg rfl
        ((State.completion_dirRead hr hcell).trans ((if_neg hd).trans (State.attemptFailed_again (s := s.readOver a) ha)))
        rfl rfl rfl rfl rfl)
    · refine congrArg Host.Outcome.next (State.completeKind_served hq hg rfl
        ((State.completion_dirRead hr hcell).trans ((if_neg hd).trans
          (State.thirdAttempt_alone (s := s.readOver a) ha hx hm hc))) rfl rfl ?_)
      refine State.visited_of_idle (s := s) ?_ ?_ ?_ hvisit
      · rfl
      · rfl
      · rfl
    · obtain ⟨f, hf⟩ := State.readback_loses (k := fun g => g matches .dirRead _) hq hg rfl
        ((State.completion_dirRead hr hcell).trans (if_neg hd)) ha hx hm hp hk
      refine ⟨_, congrArg Host.Outcome.next hf, ?_, ?_, ?_, ?_, ?_, fun next hc => ?_, fun hc => ?_⟩
      · rw [State.tellCommitFailure_frame]; rfl
      · rw [State.tellCommitFailure_frame]; rfl
      · rw [State.tellCommitFailure_frame]; rfl
      · rw [State.tellCommitFailure_frame]; rfl
      · rw [State.tellCommitFailure_frame]; rfl
      · rw [State.tellCommitFailure_waiting (s := (s.readOver a).commitLost _ _ _) hc]
        exact ⟨rfl, rfl, rfl⟩
      · rw [State.tellCommitFailure_idle (s := (s.readOver a).commitLost _ _ _) hc]
        exact ⟨rfl, rfl⟩
    · refine congrArg Host.Outcome.next (State.completeKind_served hq hg rfl
        ((State.completion_dirClose a c).trans (State.commitSuccess_alone (s := s.writeOver a c) hx hf hm hc)) rfl rfl ?_)
      refine State.visited_of_idle (s := s) ?_ ?_ ?_ hvisit
      · rfl
      · rfl
      · rfl
    · obtain ⟨f, hland⟩ := State.commitSuccess_lands (s := s.writeOver a c) hx hr hm hp hinc hqueue hnew
      have hflag : ((s.writeOver a c).migrationLanded x m f).dir.pendingFlag = false :=
        (congrArg CommitUnit.pendingFlag ((s.writeOver a c).succeededDir_frame x)).trans hf
      have ht := (State.completion_dirClose a c).trans (hland.trans (State.tellCommitSuccess_nextCommit_idle hflag))
      obtain ⟨scrub, hs⟩ := State.completeKind_passed (k := fun g => g matches .dirClose _ _) hq.2.2.1 hq.1 hq.2.2.2.1
        hpass hg rfl ht rfl rfl
      refine ⟨_, congrArg Host.Outcome.next hs, rfl, rfl, rfl, rfl, rfl, fun hc => ?_, fun hc => ?_⟩
      · dsimp only
        rw [State.tellCommitSuccess_waiting (s := (s.writeOver a c).migrationLanded _ _ _) hc]
        exact ⟨rfl, rfl, rfl⟩
      · dsimp only
        rw [State.tellCommitSuccess_idle (s := (s.writeOver a c).migrationLanded _ _ _) hc]
        exact ⟨rfl, rfl⟩
    · obtain ⟨f, hmove⟩ := State.commitSuccess_moves (s := s.writeOver a c) hx hr hm hp hinc hqueue hmap hother hne hold
      have hgen₁ : ((s.writeOver a c).succeededDir x).gen = s.dir.gen + 1 :=
        congrArg CommitUnit.gen ((s.writeOver a c).succeededDir_frame x)
      have hlimit : ((s.writeOver a c).succeededDir x).gen ≠ 0xFFFFFFFF := by
        rw [hgen₁]
        bv_omega
      have ht := (State.completion_dirClose a c).trans (hmove.trans (State.tellCommitSuccess_nextCommit rfl hlimit))
      obtain ⟨scrub, hs⟩ := State.completeKind_passed (k := fun g => g matches .dirClose _ _) hq.2.2.1 hq.1 hq.2.2.2.1
        hpass hg rfl ht rfl rfl
      have hsnap := State.furtherDir_alone
        (s := (s.writeOver a c).migrationMoved x m old (pre ++ ⟨m.lam, m.spare⟩ :: post) f) rfl
      refine ⟨_, _, congrArg Host.Outcome.next hs, rfl, rfl, rfl, rfl, rfl, State.furtherDir_pendingFlag _, rfl, rfl,
        (State.furtherDir_gen _).trans hgen₁, hsnap, ?_, rfl, ?_, rfl, fun hc => ?_, fun hc => ?_⟩
      · show ((s.writeOver a c).succeededDir x).gen + 1 = _
        rw [hgen₁]
        bv_omega
      · show (List.map _ ((s.map.spares.set m.spare .inUse).set old .condemned))[old]? = _
        obtain ⟨hlt, -⟩ := List.getElem?_eq_some_iff.mp hold
        simp [hlt]
      · dsimp only
        rw [State.tellCommitSuccess_waiting (s := (s.writeOver a c).migrationMoved _ _ _ _ _) hc]
        exact ⟨rfl, rfl, rfl⟩
      · dsimp only
        rw [State.tellCommitSuccess_idle (s := (s.writeOver a c).migrationMoved _ _ _ _ _) hc,
          State.advanceWait_idle (s := (s.writeOver a c).migrationMoved _ _ _ _ _) hc]
        exact ⟨rfl, rfl⟩
  · have hstart := State.nextCommit_starts hflag hgen
    have hdue : s.commitStartDue = true := by simp [State.commitStartDue, hidle, hflag, hd, hro]
    refine ⟨_, _, _, (exec_commitStart_due hrun hrange hb hdue (by rw [hstart])).trans (congrArg _ hstart), rfl,
      State.furtherDir_pendingFlag s, rfl, rfl, rfl, State.startedDir_known _, State.furtherDir_gen s, rfl, rfl, rfl, rfl,
      rfl, rfl⟩
  · let w := s.writeOver a c
    let u : State := { w with dir := w.succeededDir y, events := w.doneEvents y }
    have hgen₁ : u.dir.gen = s.dir.gen + 1 := congrArg CommitUnit.gen (w.succeededDir_frame y)
    have hlimit : u.dir.gen ≠ 0xFFFFFFFF := by
      rw [hgen₁]
      bv_omega
    have hpend : u.dir.pendingFlag = true := (congrArg CommitUnit.pendingFlag (w.succeededDir_frame y)).trans hflag
    have hsnap : u.dir.snapshot = s.dir.snapshot := (congrArg CommitUnit.snapshot (w.succeededDir_frame y)).trans rfl
    have hother : u.completeIncluded = u :=
      State.completeIncluded_other fun m hf q hs => (hm m hf).2 q (hsnap.symm.trans hs)
    have hend : s.clearGrant.completion (.dirClose a c) = _ :=
      (State.commitSuccess_eq (s := w) hy).trans
        ((congrArg (fun v : State => v.tellCommitSuccess.nextCommit) hother).trans (State.tellCommitSuccess_nextCommit hpend hlimit))
    refine ⟨_, _, _, congrArg Host.Outcome.next (State.completeKind_spent hrun hstop hrange hb hg rfl hend rfl rfl), rfl,
      State.furtherDir_pendingFlag u, rfl, rfl, rfl, (State.furtherDir_gen u).trans hgen₁, rfl, ?_, rfl, rfl, ?_⟩
    · show u.dir.gen + 1 = _
      rw [hgen₁]
      bv_omega
    · show s.waitingMigration.map _ = _
      rw [State.waitingMigration]
      cases hf : s.mig.flight with
      | none => rfl
      | some m => simp [(hm m hf).1]

/-! ### The end of a grant, whatever is passed over (R95, R107) -/

section
variable {s t : State}

theorem State.completeSlice_frame (s : State) : s.completeSlice = { s with
    scrub := s.completeSlice.scrub, events := s.completeSlice.events } := by
  unfold State.completeSlice
  dsimp only
  split
  · split <;> rfl
  · rfl

theorem skipSlices_frame (n : Nat) (s : State) : skipSlices n s = { s with
    scrub := (skipSlices n s).scrub, events := (skipSlices n s).events } := by
  induction n generalizing s with
  | zero => rfl
  | succ n ih =>
    rw [skipSlices]
    split
    · refine (ih _).trans ?_
      generalize skipSlices n s.completeSlice = u
      rw [State.completeSlice_frame]
    · rfl

theorem State.scrubSettle_frame (hr : s.scrub.range = none) : s.scrubSettle = { s with
    scrub := s.scrubSettle.scrub, events := s.scrubSettle.events } := by
  unfold State.scrubSettle
  split
  · rfl
  · rw [skipBlocks_none hr]
    exact skipSlices_frame _ _

theorem State.scrubSettle_settled (hr : s.scrub.range = none) : ∃ c e, s.scrubSettle = { s with scrub := c, events := e } ∧
    (s.scrub.passEvent = false → e = s.events) := by
  by_cases hpass : s.scrub.passEvent = false
  · obtain ⟨c, hc⟩ := State.scrubSettle_scrub hr hpass
    exact ⟨c, s.events, hc, fun _ => rfl⟩
  · exact ⟨_, _, State.scrubSettle_frame hr, fun h => absurd h hpass⟩

/-- The end of a grant that may itself change the scrub engine: slices may be passed over. -/
theorem State.completeKind_settles {g : Grant} {k : Grant → Bool} (hrun : s.rangeRuns = false)
    (hs : s.port.stopped = false) (hg : s.port.grant = some g) (hk : k g = true) (ht : s.clearGrant.completion g = t)
    (hport : t.port.stopped = s.port.stopped) (hr : t.scrub.range = none) :
    ∃ c e, s.completeKind k = { t with scrub := c, events := e } ∧ (t.scrub.passEvent = false → e = t.events) := by
  have hrun' : s.clearGrant.rangeRuns = false := hrun
  obtain ⟨c, e, hframe, he⟩ := State.scrubSettle_settled hr
  subst ht
  refine ⟨c, e, ?_, he⟩
  rw [State.completeKind_of hg hk, State.finish, State.rangeEvent_quiet hrun', hframe]
  exact State.fenceIfDue_running (hport.trans hs)

/-- The scrub engine may pass slices over at the end of a grant: only its own fields and SCRUB_PASS follow. -/
theorem State.completeKind_settled {g : Grant} {k : Grant → Bool} (hq : s.quietEnd) (hg : s.port.grant = some g)
    (hk : k g = true) (ht : s.clearGrant.completion g = t) (hport : t.port.stopped = s.port.stopped)
    (hscrub : t.scrub = s.scrub) : ∃ c e, s.completeKind k = { t with scrub := c, events := e } ∧
      (s.scrub.passEvent = false → e = t.events) := by
  obtain ⟨hs, -, hrun, hr, -⟩ := hq
  rw [← hscrub]
  exact State.completeKind_settles hrun hs hg hk ht hport (by rw [hscrub, hr])

/-! ### A commit request with no migration waiting (R42, R49) -/

theorem State.requestCommit_alone (h : s.waitingMigration = none) : ∃ d v e c i,
    s.requestCommit = { s with dir := d, dev := v, events := e, cmd := c, irq := i } ∧
      (s.dir.gen ≠ 0xFFFFFFFF → e = s.events ∧ (s.dir.state ≠ .idle → d = { s.dir with pendingFlag := true }) ∧
        (s.dir.state = .idle → s.dev.dirReadonly = false → d.state = .writing)) := by
  by_cases hi : s.dir.state = .idle
  · cases hro : s.dev.dirReadonly with
    | true =>
      exact ⟨_, _, _, _, _, State.requestCommit_readonly hi hro, fun _ => ⟨rfl, fun h => absurd hi h, by simp⟩⟩
    | false =>
      rw [State.requestCommit_idle hi hro]
      by_cases hgen : s.dir.gen = 0xFFFFFFFF
      · rw [State.startCommit_atLimit hgen, State.failCommit_alone h, State.tellCommitFailure_frame]
        exact ⟨_, _, _, _, _, rfl, fun h => absurd hgen h⟩
      · rw [State.startCommit_started hgen]
        exact ⟨_, _, _, _, _, rfl, fun _ => ⟨rfl, fun h => absurd hi h, fun _ _ => rfl⟩⟩
  · rw [State.requestCommit_busy hi]
    exact ⟨_, _, _, _, _, rfl, fun _ => ⟨rfl, fun _ => rfl, fun h => absurd h hi⟩⟩

end

/-! ### COPY (R144, R145) -/

section
variable {s : State} {m : Migration}

/-- The migration after a word of COPY, with its poison map p. -/
def Migration.copiedTo (m : Migration) (p : BitVec 256) : Migration :=
  if m.cursor < 255 then { m with cursor := m.cursor + 1, poison := p }
  else { m with cursor := 0, phase := .verify, poison := p }

theorem State.copyResult_flying (hm : s.mig.flight = some m) (hp : m.phase = .copy) {src : Addr} {r : DecodeResult}
    (hr : r.cls ≠ .uncorrectable) : s.copyResult src m.ident r = { s with mig := { s.mig with
      flight := some (m.copiedTo (if r.good then m.poison &&& ~~~(1#256 <<< m.cursor)
        else m.poison ||| (1#256 <<< m.cursor))) } } := by
  simp only [State.copyResult, hm, hp, and_self, if_true, if_neg hr, Migration.copiedTo]
  by_cases hc : m.cursor < 255
  · rw [if_pos hc, if_pos (by omega), if_pos (by omega), ← hp]
  · rw [if_neg hc, if_neg (by omega), if_neg (by omega)]

/-- The grant has read src, written x at dst and is over. -/
abbrev State.copyOver (s : State) (src dst : Addr) (x : Codeword) : State :=
  { s.granted [.read (s.maOf src), .write (s.maOf dst) x] with array := s.array.put (s.maOf dst).toNat x }

theorem State.copyOver_eq (src dst : Addr) (x : Codeword) :
    (s.clearGrant.noteRead src).writeCell dst x = s.copyOver src dst x := by
  simp only [State.writeCell, State.noteRead, List.append_assoc]
  rfl

theorem State.copyDone_fresh {src dst : Addr} {d : Word} (hm : s.mig.flight = some m) (hp : m.phase = .copy)
    (hcell : s.cell src = freshWord d) : s.clearGrant.copyDone src dst m.ident =
      { s.copyOver src dst (freshWord d) with
        mig := { s.mig with flight := some (m.copiedTo (m.poison &&& ~~~(1#256 <<< m.cursor))) } } := by
  have hcell' : s.clearGrant.cell src = freshWord d := hcell
  rw [State.copyDone, hcell', decodeWord_fresh]
  refine (congrArg (fun x => State.copyResult x src m.ident _) (State.copyOver_eq src dst (freshWord d))).trans ?_
  exact State.copyResult_flying (s := s.copyOver src dst (freshWord d)) hm hp (by simp)

theorem State.copyDone_poisoned {src dst : Addr} (hm : s.mig.flight = some m) (hp : m.phase = .copy)
    (hcell : s.cell src = poisonedWord) : s.clearGrant.copyDone src dst m.ident =
      { s.copyOver src dst poisonedWord with
        mig := { s.mig with flight := some (m.copiedTo (m.poison ||| (1#256 <<< m.cursor))) } } := by
  have hcell' : s.clearGrant.cell src = poisonedWord := hcell
  rw [State.copyDone, hcell', decodeWord_poisoned]
  refine (congrArg (fun x => State.copyResult x src m.ident _) (State.copyOver_eq src dst poisonedWord)).trans ?_
  exact State.copyResult_flying (s := s.copyOver src dst poisonedWord) hm hp (by simp)

/-! ### VERIFY (R147 to R149) -/

theorem State.verifyResult_passes (hm : s.mig.flight = some m) (hp : m.phase = .verify) {r : DecodeResult}
    (hr : verifyPasses (m.poison.getLsbD m.cursor) r = true) : s.verifyResult m.ident r =
      if m.cursor < 255 then { s with mig := { s.mig with flight := some { m with cursor := m.cursor + 1 } } }
      else s.enterCommitWait m := by
  simp only [State.verifyResult, hm, hp, and_self, if_true, hr]

theorem State.verifyResult_fails (hm : s.mig.flight = some m) (hp : m.phase = .verify) {r : DecodeResult}
    (hr : verifyPasses (m.poison.getLsbD m.cursor) r = false) : s.verifyResult m.ident r = s.verifyFailed m := by
  simp only [State.verifyResult, hm, hp, and_self, if_true, hr, Bool.false_eq_true, if_false]

theorem verifyPasses_of_match {flag : Bool} {x : Codeword} {d : Word}
    (h : flag = false ∧ x = freshWord d ∨ flag = true ∧ x = poisonedWord) : verifyPasses flag (decodeWord x) = true := by
  rcases h with ⟨rfl, rfl⟩ | ⟨rfl, rfl⟩ <;> simp [verifyPasses]

theorem verifyPasses_of_mismatch {flag : Bool} {x : Codeword} {d : Word}
    (h : flag = false ∧ x = poisonedWord ∨ flag = true ∧ x = freshWord d) : verifyPasses flag (decodeWord x) = false := by
  rcases h with ⟨rfl, rfl⟩ | ⟨rfl, rfl⟩ <;> simp [verifyPasses]

/-- The migration once its last word has passed. -/
def Migration.verified (m : Migration) : Migration := { m with phase := .commitWait, cursor := 256 }

/-- The migration has passed its last word. -/
def State.waiting (s : State) (m : Migration) : State := { s with mig := { s.mig with flight := some m.verified } }

theorem State.enterCommitWait_requests (h : s.dir.state ≠ .idle ∨ s.dev.dirReadonly = false) :
    s.enterCommitWait m = (s.waiting m).requestCommit := by
  refine if_neg fun ⟨hi, hro⟩ => ?_
  rcases h with h | h
  · exact h hi
  · exact absurd (hro.symm.trans h) (by simp)

theorem State.enterCommitWait_refused (hi : s.dir.state = .idle) (hro : s.dev.dirReadonly = true) :
    s.enterCommitWait m = (s.waiting m).abandon m.verified .commitFailed :=
  (if_pos ⟨hi, hro⟩).trans (State.abandonWaiting_of_some (s := s.waiting m) rfl rfl)

/-- R152: the request is refused, or the generation limit is met: the migration ends COMMIT_FAILED. -/
theorem State.enterCommitWait_ends (hi : s.dir.state = .idle) (h : s.dev.dirReadonly = true ∨ s.dir.gen = 0xFFFFFFFF)
    (ha : s.map.spares[m.spare]? = some .allocated) (hc : s.cmd.running = none) :
    ∃ d v f, s.enterCommitWait m = { s with
      map := { s.map with spares := s.map.spares.set m.spare .free }
      mig := { s.mig with flight := none }
      dev := v
      dir := d
      events := (if s.dev.dirReadonly then s.events else s.events.offer (commitRecord .commitFailed none 0)).offer
        (abandonedRecord m.source m.lam .commitFailed)
      faults := f } ∧ d.state = .idle ∧ v = { s.dev with dirReadonly := true } := by
  cases hro : s.dev.dirReadonly with
  | true =>
    refine ⟨s.dir, s.dev, ((s.waiting m).abandon m.verified .commitFailed).faults, ?_, hi, by rw [← hro]⟩
    exact (State.enterCommitWait_refused hi hro).trans (State.abandon_commitFailed (s := s.waiting m) hro ha)
  | false =>
    have hgen : (s.waiting m).dir.gen = 0xFFFFFFFF := h.resolve_left (by simp [hro])
    obtain ⟨f, hf⟩ := State.failCommit_waiting (s := s.waiting m) (m := m.verified) rfl rfl ha
      (commitRecord .commitFailed none 0)
    refine ⟨{ s.dir with state := .idle, pendingFlag := false, closing := false }, { s.dev with dirReadonly := true }, f,
      (State.enterCommitWait_requests (.inr hro)).trans ((State.requestCommit_idle (s := s.waiting m) hi
        hro).trans ((State.startCommit_atLimit hgen).trans (hf.trans ?_))), rfl, rfl⟩
    rw [State.tellCommitFailure_idle (s := (s.waiting m).commitLost _ _ _) hc]
    rfl

/-! #### A failed VERIFY read (R148) -/

theorem State.condemn_allocated {k : Nat} {st : SpareState} {src : Source} (ha : s.map.spares[k]? = some st) :
    s.condemn k st src = (s.markCondemned k src).requestCommit := if_pos ha

/-- R140: a migration that ends on a condemned spare, with no request queued. -/
theorem State.abandon_condemned {r : AbandonReason} (hr : r = .noSpare ∨ r = .retries) (hq : s.mig.queue = []) :
    ∃ f, s.abandon m r = { s with
      mig := { s.mig with flight := none }
      events := s.events.offer (abandonedRecord m.source m.lam r)
      faults := f } := by
  obtain ⟨f, hf⟩ : ∃ f, s.notice m.source (abandonedBefore r) (abandonedState r) = { s with faults := f } :=
    ⟨_, State.notice_eq _ _ _ _⟩
  let u : State := { s with
    mig := { s.mig with flight := none }
    events := s.events.offer (abandonedRecord m.source m.lam r)
    faults := f }
  have hu : s.abandon m r = u.tryStart := by
    rcases hr with rfl | rfl <;> simp only [State.abandon, hf] <;> rfl
  exact ⟨f, hu.trans (State.tryStart_of_empty hq)⟩

/-- The spare of the migration condemned, before anything follows. -/
theorem State.condemn_flying (hm : s.mig.flight = some m) (hp : m.phase = .verify)
    (ha : s.map.spares[m.spare]? = some .allocated) : ∃ d v e c i,
    s.condemn m.spare .allocated .migrate = { s with
      map := { s.map with spares := s.map.spares.set m.spare .condemned }
      dir := d, dev := v, events := e, cmd := c, irq := i } ∧
    (s.dir.gen ≠ 0xFFFFFFFF → e = s.events.offer (condemnedRecord .migrate (s.spareBlock m.spare) m.spare) ∧
      (s.dir.state ≠ .idle → d = { s.dir with pendingFlag := true }) ∧
      (s.dir.state = .idle → s.dev.dirReadonly = false → d.state = .writing)) := by
  have hwait : (s.markCondemned m.spare .migrate).waitingMigration = none :=
    State.waitingMigration_none_of_phase (s := s.markCondemned m.spare .migrate) hm (by simp [hp])
  obtain ⟨d, v, e, c, i, heq, h⟩ := State.requestCommit_alone hwait
  exact ⟨d, v, e, c, i, (State.condemn_allocated ha).trans heq, h⟩

/-- R148 step 3: COPY begins again on the FREE spare of lowest index. -/
theorem State.verifyFailed_retries {k : Nat} (hm : s.mig.flight = some m) (hp : m.phase = .verify)
    (ha : s.map.spares[m.spare]? = some .allocated) (h3 : m.attempt < 3) (hk : s.map.spares[k]? = some .free)
    (hk' : ∀ j, j < k → s.map.spares[j]? ≠ some .free) : ∃ d v e c i, s.verifyFailed m = { s with
      map := { s.map with spares := (s.map.spares.set m.spare .condemned).set k .allocated }
      mig := { s.mig with
        flight := some { m with
          phase := .copy, spare := k, cursor := 0, poison := 0, attempt := m.attempt + 1, ident := s.mig.nextId }
        nextId := s.mig.nextId + 1 }
      dir := d, dev := v, cmd := c, irq := i
      events := e.offer { kind := .migrationRetry, source := .migrate, phys := some (s.spareBlock k)
                          logical := some m.lam, offset := some (BitVec.ofNat 8 m.cursor)
                          detail := BitVec.ofNat 16 (m.attempt + 1) } } ∧
    (s.dir.gen ≠ 0xFFFFFFFF → e = s.events.offer (condemnedRecord .migrate (s.spareBlock m.spare) m.spare) ∧
      (s.dir.state ≠ .idle → d = { s.dir with pendingFlag := true }) ∧
      (s.dir.state = .idle → s.dev.dirReadonly = false → d.state = .writing)) := by
  obtain ⟨d, v, e, c, i, heq, h⟩ := State.condemn_flying hm hp ha
  have hne : m.spare ≠ k := fun he => by simp [he, hk] at ha
  refine ⟨d, v, e, c, i, ?_, h⟩
  rw [State.verifyFailed, heq, if_pos h3]
  generalize hu : ({ s with map := { s.map with spares := s.map.spares.set m.spare .condemned }
                            dir := d, dev := v, events := e, cmd := c, irq := i } : State) = u
  have hfree : u.freeSpare = some k := by
    rw [State.freeSpare_eq_some_iff, ← hu]
    refine ⟨(List.getElem?_set_ne hne).trans hk, fun j hj => ?_⟩
    show (s.map.spares.set m.spare .condemned)[j]? ≠ _
    rw [List.getElem?_set]
    split
    · split <;> simp
    · exact hk' j hj
  have hblock : ({ u.setSpare k .allocated with mig := { u.mig with
      flight := some { m with phase := .copy, spare := k, cursor := 0, poison := 0, attempt := m.attempt + 1,
                              ident := u.mig.nextId }
      nextId := u.mig.nextId + 1 } } : State).spareBlock k = s.spareBlock k := by
    refine State.spareBlock_congr ?_ ?_ k
    · rw [← hu]; rfl
    · rw [← hu]
      exact List.length_set.trans List.length_set
  rw [hfree]
  dsimp only [State.retryMigration]
  rw [hblock, ← hu]
  rfl

/-- R148: no other spare is FREE, or the attempts are over. -/
theorem State.verifyFailed_ends (hm : s.mig.flight = some m) (hp : m.phase = .verify)
    (ha : s.map.spares[m.spare]? = some .allocated) (hq : s.mig.queue = [])
    (h : m.attempt = 3 ∨ m.attempt < 3 ∧ ∀ j : Nat, s.map.spares[j]? ≠ some .free) :
    ∃ d v e c i f, s.verifyFailed m = { s with
      map := { s.map with spares := s.map.spares.set m.spare .condemned }
      mig := { s.mig with flight := none }
      dir := d, dev := v, cmd := c, irq := i, faults := f
      events := e.offer (abandonedRecord m.source m.lam (if m.attempt = 3 then .retries else .noSpare)) } ∧
    (s.dir.gen ≠ 0xFFFFFFFF → e = s.events.offer (condemnedRecord .migrate (s.spareBlock m.spare) m.spare)) := by
  obtain ⟨d, v, e, c, i, heq, hgen⟩ := State.condemn_flying hm hp ha
  rw [State.verifyFailed, heq]
  generalize hu : ({ s with map := { s.map with spares := s.map.spares.set m.spare .condemned }
                            dir := d, dev := v, events := e, cmd := c, irq := i } : State) = u
  have hqueue : u.mig.queue = [] := by rw [← hu]; exact hq
  rcases h with h3 | ⟨h3, hnone⟩
  · obtain ⟨f, hf⟩ := State.abandon_condemned (s := u) (m := m) (.inr rfl) hqueue
    refine ⟨d, v, e, c, i, f, ?_, fun hg => (hgen hg).1⟩
    rw [if_neg (by omega), if_pos h3]
    refine hf.trans ?_
    rw [← hu]
  · obtain ⟨f, hf⟩ := State.abandon_condemned (s := u) (m := m) (.inl rfl) hqueue
    have hfree : u.freeSpare = none := by
      rw [State.freeSpare_eq_none_iff, ← hu]
      intro j
      show (s.map.spares.set m.spare .condemned)[j]? ≠ _
      rw [List.getElem?_set]
      split
      · split <;> simp
      · exact hnone j
    refine ⟨d, v, e, c, i, f, ?_, fun hg => (hgen hg).1⟩
    rw [if_pos h3, if_neg (by omega), hfree]
    refine hf.trans ?_
    rw [← hu]

end

/-- Settles O53: the copy rows, the reads that pass, the last of them, and the failed reads. -/
theorem copyAndVerify : Obligations.CopyAndVerify := by
  intro s m src dst d hq hm raised copied flag passes fails flying gone condemned
  refine ⟨fun hg hp hcell => ?_, fun hg hp hcell => ?_, fun hg hp => ?_⟩
  · exact congrArg Host.Outcome.next (State.completeKind_quiet hq hg rfl (State.copyDone_fresh hm hp hcell)
      rfl rfl rfl rfl rfl)
  · exact congrArg Host.Outcome.next (State.completeKind_quiet hq hg rfl (State.copyDone_poisoned hm hp hcell)
      rfl rfl rfl rfl rfl)
  intro read waits
  have hpass (h : passes) : s.clearGrant.completion (.verify dst m.ident) =
      if m.cursor < 255 then { read with mig := flying { m with cursor := m.cursor + 1 } }
      else State.enterCommitWait read m :=
    State.verifyResult_passes (s := read) hm hp (verifyPasses_of_match h)
  have hlast (h : passes) (hc : m.cursor = 255) :
      s.clearGrant.completion (.verify dst m.ident) = State.enterCommitWait read m :=
    (hpass h).trans (if_neg (by omega))
  have hfail (h : fails) : s.clearGrant.completion (.verify dst m.ident) = State.verifyFailed read m :=
    State.verifyResult_fails (s := read) hm hp (verifyPasses_of_mismatch h)
  refine ⟨fun h hc => ?_, fun h hc => ⟨fun hbusy => ?_, fun hi hro hgen => ?_, fun hi hend ha hcmd => ?_⟩,
    fun h ha => ⟨fun k h3 hk hk' => ?_, fun hend hqueue => ?_⟩⟩
  · exact congrArg Host.Outcome.next (State.completeKind_quiet hq hg rfl ((hpass h).trans (if_pos hc))
      rfl rfl rfl rfl rfl)
  · exact congrArg Host.Outcome.next (State.completeKind_committing hq hbusy hg rfl
      ((hlast h hc).trans ((State.enterCommitWait_requests (s := read) (.inl hbusy)).trans
        (State.requestCommit_busy (s := State.waiting read m) hbusy))) rfl rfl rfl rfl rfl)
  · have ht := (hlast h hc).trans ((State.enterCommitWait_requests (s := read) (.inr hro)).trans
      ((State.requestCommit_idle (s := State.waiting read m) hi hro).trans
        (State.startCommit_started (s := State.waiting read m) hgen)))
    obtain ⟨c, e, hend, he⟩ := State.completeKind_settled (k := fun g => g matches .verify _ _) hq hg rfl ht rfl rfl
    exact ⟨_, _, congrArg Host.Outcome.next hend, rfl, rfl, rfl, rfl, rfl,
      congrArg (Option.map _) (State.waitingMigration_some (s := State.waiting read m) rfl rfl), rfl, rfl, he⟩
  · obtain ⟨dir, v, f, ht, hidle, hv⟩ := State.enterCommitWait_ends (s := read) hi hend ha hcmd
    refine ⟨_, congrArg Host.Outcome.next (State.completeKind_served hq hg rfl ((hlast h hc).trans ht) rfl rfl ?_), rfl,
      hidle, hv, rfl, rfl, ?_⟩
    · refine State.visited_of_setSpare (s := s) (k := m.spare) (st := .free) (.inl rfl) ?_ ?_
        (fun _ hne _ => absurd hidle hne) hq.2.2.2.2
      · rfl
      · rfl
    · show Events.offer (if s.dev.dirReadonly then _ else _) _ = _
      split <;> rfl
  · obtain ⟨dir, v, e, cmd, irq, ht, hgen⟩ := State.verifyFailed_retries (s := read) hm hp ha h3 hk hk'
    obtain ⟨c, e', hend, he⟩ := State.completeKind_settled (k := fun g => g matches .verify _ _) hq hg rfl
      ((hfail h).trans ht) rfl rfl
    refine ⟨_, congrArg Host.Outcome.next hend, rfl, rfl, rfl, fun hlimit hev => ?_⟩
    obtain ⟨hrec, hbusy, hidle⟩ := hgen hlimit
    refine ⟨hbusy, hidle, (he hev).trans ?_⟩
    rw [hrec]
    rfl
  · obtain ⟨dir, v, e, cmd, irq, f, ht, hgen⟩ := State.verifyFailed_ends (s := read) hm hp ha hqueue hend
    obtain ⟨c, e', hend', he⟩ := State.completeKind_settled (k := fun g => g matches .verify _ _) hq hg rfl
      ((hfail h).trans ht) rfl rfl
    refine ⟨_, congrArg Host.Outcome.next hend', rfl, rfl, rfl, rfl, fun hlimit hev => (he hev).trans ?_⟩
    rw [hgen hlimit]
    split <;> rfl

/-! ### A word of a copy at the mount reader (R36) -/

theorem CopyFold.add_fresh (f : CopyFold) (i : Nat) (d : Word) : f.add i (decodeWord (freshWord d)) =
    { allGood := f.allGood, sum := f.sum + d, words := if i < 68 then f.words ++ [d] else f.words } := by
  rw [CopyFold.add, decodeWord_fresh]
  simp [DecodeResult.good]

theorem mountOffset_eq (i : BitVec 9) : (i.extractLsb' 0 8).toNat = i.toNat % 256 := by
  rw [BitVec.extractLsb'_toNat, Nat.shiftRight_zero]

theorem mountHalf_eq (i : BitVec 9) : i.getLsbD 8 = Decidable.decide (256 ≤ i.toNat) := by
  rw [BitVec.getLsbD, Nat.testBit_eq_decide_div_mod_eq]
  have := i.isLt
  exact decide_eq_decide.mpr (by omega)

section
variable {s : State}

theorem State.mountReadDone_fresh {a : Addr} {d : Word} (hh : s.mount.holds = true) (hcell : s.cell a = freshWord d) :
    s.clearGrant.mountReadDone a = (s.readOver a).mountResult (decodeWord (freshWord d)) := by
  have hcell' : s.clearGrant.cell a = freshWord d := hcell
  rw [State.mountReadDone, hcell', decodeWord_fresh]
  exact if_pos hh

/-- The mount reader after the word d. -/
def MountReader.took (m : MountReader) (d : Word) : MountReader :=
  let added := fun (f : CopyFold) => f.add (m.word.toNat % 256) (decodeWord (freshWord d))
  { m with word := m.word + 1, holds := false
           foldA := if m.word.toNat < 256 then added m.foldA else m.foldA
           foldB := if m.word.toNat < 256 then m.foldB else added m.foldB }

theorem State.mountResult_fresh (s : State) (d : Word) : s.mountResult (decodeWord (freshWord d)) =
    if s.mount.word.toNat = 511 then ({ s with mount := s.mount.took d } : State).mountComplete
    else { s with mount := s.mount.took d } := by
  have hlast : s.mount.word = BitVec.allOnes 9 ↔ s.mount.word.toNat = 511 := by
    rw [← BitVec.toNat_inj]
    rfl
  simp only [State.mountResult, mountHalf_eq, mountOffset_eq, hlast, MountReader.took]
  by_cases h : s.mount.word.toNat < 256
  · simp only [if_pos h, decide_eq_false (show ¬ 256 ≤ s.mount.word.toNat by omega), Bool.false_eq_true, if_false]
  · simp only [if_neg h, decide_eq_true (show 256 ≤ s.mount.word.toNat by omega), if_true]

/-! ### The end of a mount (R37, R38) -/

theorem mountChoice_single {va vb : Verdict} {x : Copy}
    (h : if x = .a then va = .valid ∧ vb ≠ .valid else vb = .valid ∧ va ≠ .valid) (ga gb : Word) :
    mountChoice va vb ga gb = (.mountedSingle, some x) := by
  cases x
  · obtain ⟨rfl, hb⟩ : va = .valid ∧ vb ≠ .valid := h
    cases vb with
    | valid => exact absurd rfl hb
    | invalid | foreign => rfl
  · obtain ⟨rfl, ha⟩ : vb = .valid ∧ va ≠ .valid := h
    cases va with
    | valid => exact absurd rfl ha
    | invalid | foreign => rfl

theorem mountChoice_foreign {va vb : Verdict} (ha : va ≠ .valid) (hb : vb ≠ .valid) (h : va = .foreign ∨ vb = .foreign)
    (ga gb : Word) : mountChoice va vb ga gb = (.foreign, some (if vb ≠ .foreign then .a
      else if va ≠ .foreign then .b else if ga < gb then .b else .a)) := by
  cases va with
  | valid => exact absurd rfl ha
  | invalid =>
    obtain rfl : vb = .foreign := by simpa using h
    rfl
  | foreign =>
    cases vb with
    | valid => exact absurd rfl hb
    | invalid | foreign => rfl

/-- The outcome o and the copy c are posted and the device leaves MOUNTING. -/
def State.mountEnded (s : State) (o : MountOutcome) (c : Option Copy) : State :=
  (({ s with dev := { s.dev with outcome := o }, mount := { s.mount with running := false } } : State).post
    (s.mountRecord o c)).leaveMounting o

/-- The outcome of the mount by both verdicts. -/
def State.mountVerdicts (s : State) : MountOutcome × Option Copy :=
  mountChoice (s.mount.foldA.verdict s.physBlocks) (s.mount.foldB.verdict s.physBlocks) s.mount.foldA.gen s.mount.foldB.gen

theorem State.mountComplete_unloaded {o : MountOutcome} {c : Option Copy} (h : s.mountVerdicts = (o, c))
    (ho : o = .unformatted ∨ o = .foreign) : s.mountComplete = s.mountEnded o c := by
  unfold State.mountVerdicts at h
  rcases ho with rfl | rfl <;> rw [State.mountComplete, h] <;> rfl

theorem State.mountComplete_loaded {c : Copy} (h : s.mountVerdicts = (.mounted, some c)) :
    s.mountComplete = (s.loadCopy c).mountEnded .mounted (some c) := by
  unfold State.mountVerdicts at h
  rw [State.mountComplete, h]
  rfl

theorem State.mountComplete_single {c : Copy} (h : s.mountVerdicts = (.mountedSingle, some c)) :
    s.mountComplete = ((s.loadCopy c).mountEnded .mountedSingle (some c)).requestCommit := by
  unfold State.mountVerdicts at h
  rw [State.mountComplete, h]
  rfl

theorem State.mountEnded_frame (s : State) (o : MountOutcome) (c : Option Copy) : ∃ e i, s.mountEnded o c = { s with
    dev := { s.dev with state := stateOfOutcome o, outcome := o }
    mount := { s.mount with running := false }
    scrub := { s.scrub with ticks := 0 }
    cmd := e
    irq := i
    events := if s.cmd.running = some .remount then
        (s.events.offer (s.mountRecord o c)).offer (commandDoneRecord s.cmd.field .ok)
      else s.events.offer (s.mountRecord o c) } := by
  by_cases h : s.cmd.running = some .remount
  · refine ⟨{ s.cmd with result := .ok, running := none }, { s.irq with cmdDone := true }, ?_⟩
    rw [if_pos h, State.mountEnded, State.leaveMounting]
    dsimp only [State.clearTicks, State.post]
    rw [h]
    rfl
  · refine ⟨s.cmd, s.irq, ?_⟩
    rw [if_neg h, State.mountEnded, State.leaveMounting]
    dsimp only [State.clearTicks, State.post]
    split
    · rename_i hrun
      exact absurd hrun h
    · rfl

/-! ### The repair commit (R39) -/

/-- A migration that ends COMMIT_FAILED where its spare is not ALLOCATED: the map stays. -/
theorem State.abandon_unallocated {m : Migration} (hro : s.dev.dirReadonly = true)
    (hk : s.map.spares[m.spare]? ≠ some .allocated) : ∃ f, s.abandon m .commitFailed = { s with
      mig := { s.mig with flight := none }
      events := s.events.offer (abandonedRecord m.source m.lam .commitFailed)
      faults := f } := by
  obtain ⟨f, hf⟩ : ∃ f, s.notice m.source (abandonedBefore .commitFailed) (abandonedState .commitFailed) =
      { s with faults := f } := ⟨_, State.notice_eq _ _ _ _⟩
  refine ⟨f, ?_⟩
  rw [State.abandon, State.release, if_neg hk]
  dsimp only
  rw [hf]
  exact State.tryStart_of_readonly hro

theorem State.failCommit_keeps_map (h : ∀ k : Nat, s.map.spares[k]? ≠ some .allocated) (r : EventRecord) :
    ∃ m d v e c i f, s.failCommit r =
      { s with mig := m, dir := d, dev := v, events := e, cmd := c, irq := i, faults := f } ∧ d.gen = s.dir.gen := by
  obtain ⟨m, e, f, hw⟩ : ∃ m e f, (s.setReadonly.post r).abandonWaiting =
      { s.setReadonly.post r with mig := m, events := e, faults := f } := by
    unfold State.abandonWaiting
    split
    · split
      · obtain ⟨f, hf⟩ := State.abandon_unallocated (s := s.setReadonly.post r) rfl (h _)
        exact ⟨_, _, _, hf⟩
      · exact ⟨_, _, _, rfl⟩
    · exact ⟨_, _, _, rfl⟩
  rw [State.failCommit, hw, State.tellCommitFailure_frame]
  exact ⟨_, _, _, _, _, _, _, rfl, rfl⟩

/-- With no spare ALLOCATED a commit request keeps the map, the generation and the array. -/
theorem State.requestCommit_keeps_map (h : ∀ k : Nat, s.map.spares[k]? ≠ some .allocated) : ∃ m d v e c i f,
    s.requestCommit = { s with mig := m, dir := d, dev := v, events := e, cmd := c, irq := i, faults := f } ∧
      d.gen = s.dir.gen := by
  by_cases hi : s.dir.state = .idle
  · cases hro : s.dev.dirReadonly with
    | true => exact ⟨_, _, _, _, _, _, _, State.requestCommit_readonly hi hro, rfl⟩
    | false =>
      rw [State.requestCommit_idle hi hro]
      by_cases hgen : s.dir.gen = 0xFFFFFFFF
      · rw [State.startCommit_atLimit hgen]
        exact State.failCommit_keeps_map h _
      · rw [State.startCommit_started hgen]
        exact ⟨_, _, _, _, _, _, _, rfl, s.startedDir_gen⟩
  · rw [State.requestCommit_busy hi]
    exact ⟨_, _, _, _, _, _, _, rfl, rfl⟩

theorem CopyFold.spares_ne_allocated (f : CopyFold) (k : Nat) : f.spares[k]? ≠ some .allocated := by
  intro hk
  obtain ⟨i, -, hi⟩ := List.mem_map.mp (List.mem_of_getElem? hk)
  unfold spareOfWord at hi
  split at hi
  · cases hi
  · split at hi <;> cases hi

/-- What a commit that starts at the end of a mount records. -/
theorem State.takeSnapshot_loaded (hw : s.waitingMigration = none) (h : ∀ k : Nat, s.map.spares[k]? ≠ some .allocated)
    (g : Word) : s.takeSnapshot g = ⟨g, s.physBlocks, s.map.remap, s.map.spares, none⟩ := by
  have hspares : (s.map.spares.map fun st => if st = .allocated then SpareState.free else st) = s.map.spares := by
    refine (List.map_congr_left fun st hst => if_neg fun he => ?_).trans (List.map_id' _)
    obtain ⟨k, hk⟩ := List.mem_iff_getElem?.mp hst
    exact h k (he ▸ hk)
  rw [State.takeSnapshot, State.snapshotEntries_alone hw, State.snapshotSpares_alone hw, hspares, hw]
  rfl

theorem CommitUnit.known_markInvalid_other (d : CommitUnit) (x : Copy) :
    (d.markInvalid (if x = .a then .b else .a)).known x = d.known x := by
  cases x <;> rfl

theorem State.loadCopy_known {x : Copy} (hx : (s.mount.fold x).verdict s.physBlocks = .valid) :
    (s.loadCopy x).dir.known x = ⟨true, (s.mount.fold x).gen⟩ := by
  cases x <;> exact if_pos hx

theorem State.loadCopy_chooseTarget {x : Copy} {u : State} (hdir : u.dir = (s.loadCopy x).dir)
    (hother : (s.mount.fold (if x = .a then .b else .a)).verdict s.physBlocks ≠ .valid)
    (hx : (s.mount.fold x).verdict s.physBlocks = .valid) : u.dir.chooseTarget = if x = .a then .b else .a := by
  rw [hdir]
  cases x
  · have hb : s.mount.foldB.verdict s.physBlocks ≠ .valid := hother
    have ha : s.mount.foldA.verdict s.physBlocks = .valid := hx
    simp [CommitUnit.chooseTarget, State.loadCopy, knownOf, ha, hb]
  · have ha : s.mount.foldA.verdict s.physBlocks ≠ .valid := hother
    simp [CommitUnit.chooseTarget, State.loadCopy, knownOf, ha]

end

/-- Settles O58: the words read, and the outcomes by both verdicts. -/
theorem mountReads : Obligations.MountReads := by
  intro s a d hq hmount hg hh hcell o added va vb fold later posts
  have hdone : s.clearGrant.completion (.mountRead a) = if s.mount.word.toNat = 511 then
      ({ s.readOver a with mount := s.mount.took d } : State).mountComplete
      else { s.readOver a with mount := s.mount.took d } :=
    (State.mountReadDone_fresh hh hcell).trans (State.mountResult_fresh (s.readOver a) d)
  have hadd (f : CopyFold) : f.add (s.mount.word.toNat % 256) (decodeWord (freshWord d)) = added f :=
    CopyFold.add_fresh f _ d
  let u : State := { s.readOver a with
    mount := { s.mount with word := s.mount.word + 1, holds := false, foldB := added s.mount.foldB } }
  have hlast (hw : s.mount.word.toNat = 511) : s.clearGrant.completion (.mountRead a) = u.mountComplete := by
    have htook : s.mount.took d =
        { s.mount with word := s.mount.word + 1, holds := false, foldB := added s.mount.foldB } := by
      rw [MountReader.took, if_neg (by omega), if_neg (by omega), ← hadd]
    rw [hdone, if_pos hw, htook]
  have hverdicts : u.mountVerdicts = mountChoice va vb s.mount.foldA.gen (added s.mount.foldB).gen := rfl
  have hfold (x : Copy) : u.mount.fold x = fold x := by cases x <;> rfl
  refine ⟨fun hw => ?_, fun hlo hhi => ?_, fun hw ha hb => ?_, fun hw ha hb => ?_, fun x hw hx => ?_,
    fun x hw ha hb hf hx => ?_⟩
  · have htook : s.mount.took d =
        { s.mount with word := s.mount.word + 1, holds := false, foldA := added s.mount.foldA } := by
      rw [MountReader.took, if_pos hw, if_pos hw, ← hadd]
    rw [if_neg (by omega), htook] at hdone
    exact congrArg Host.Outcome.next (State.completeKind_quiet hq hg rfl hdone rfl rfl rfl rfl rfl)
  · have htook : s.mount.took d =
        { s.mount with word := s.mount.word + 1, holds := false, foldB := added s.mount.foldB } := by
      rw [MountReader.took, if_neg (by omega), if_neg (by omega), ← hadd]
    rw [if_neg (by omega), htook] at hdone
    exact congrArg Host.Outcome.next (State.completeKind_quiet hq hg rfl hdone rfl rfl rfl rfl rfl)
  · rw [ha, hb] at hverdicts
    obtain ⟨cmd, irq, hend⟩ := u.mountEnded_frame .unformatted none
    obtain ⟨c, e, ht, he⟩ := State.completeKind_settles (k := fun g => g matches .mountRead _) hq.2.2.1 hq.1 hg rfl
      ((hlast hw).trans ((State.mountComplete_unloaded hverdicts (.inl rfl)).trans hend)) rfl hq.2.2.2.1
    exact ⟨_, congrArg Host.Outcome.next ht, rfl, rfl, rfl, rfl, rfl, he⟩
  · rw [ha, hb] at hverdicts
    obtain ⟨cmd, irq, hend⟩ := (u.loadCopy later).mountEnded_frame .mounted (some later)
    obtain ⟨c, e, ht, he⟩ := State.completeKind_settles (k := fun g => g matches .mountRead _) hq.2.2.1 hq.1 hg rfl
      ((hlast hw).trans ((State.mountComplete_loaded hverdicts).trans hend)) rfl hq.2.2.2.1
    refine ⟨_, congrArg Host.Outcome.next ht, rfl, rfl, ?_, ?_, ?_, ?_, rfl, he⟩
    · rw [← hfold later]; rfl
    · rw [← hfold later]; rfl
    · exact if_pos ha
    · exact if_pos hb
  · rw [mountChoice_single hx] at hverdicts
    obtain ⟨cmd, irq, hend⟩ := (u.loadCopy x).mountEnded_frame .mountedSingle (some x)
    generalize hv : (u.loadCopy x).mountEnded .mountedSingle (some x) = v at hend
    have hmap : v.map = ⟨true, (fold x).spares, (fold x).entries⟩ := by rw [hend, ← hfold x]; rfl
    have hgen : v.dir.gen = (fold x).gen := by rw [hend, ← hfold x]; rfl
    have hkept : ∀ k : Nat, v.map.spares[k]? ≠ some .allocated := by
      rw [hmap]
      exact (fold x).spares_ne_allocated
    obtain ⟨m, dir, dev, ev, cmd', irq', f, hreq, hdir⟩ := State.requestCommit_keeps_map hkept
    obtain ⟨c, e, ht, he⟩ := State.completeKind_settles (k := fun g => g matches .mountRead _) hq.2.2.1 hq.1 hg rfl
      ((hlast hw).trans ((State.mountComplete_single hverdicts).trans (congrArg State.requestCommit hv)))
      (by rw [hreq, hend]; rfl) (by rw [hreq, hend]; exact hq.2.2.2.1)
    refine ⟨_, congrArg Host.Outcome.next ht, ?_, ?_, ?_, fun hidle hro hlimit hflight => ?_⟩
    · rw [hreq, hend]; rfl
    · rw [hreq]; exact hmap
    · rw [hreq]; exact hdir.trans hgen
    have hvidle : v.dir.state = .idle := by rw [hend]; exact hidle
    have hvro : v.dev.dirReadonly = false := by rw [hend]; exact hro
    have hstart : v.requestCommit = { v with dir := v.startedDir } :=
      (State.requestCommit_idle hvidle hvro).trans (State.startCommit_started (by rw [hgen]; exact hlimit))
    have hdirv : v.dir = (u.loadCopy x).dir := by rw [hend]
    have hvalid : (u.mount.fold x).verdict u.physBlocks = .valid ∧
        (u.mount.fold (if x = .a then .b else .a)).verdict u.physBlocks ≠ .valid := by
      cases x <;> exact hx
    have htarget : v.dir.chooseTarget = if x = .a then .b else .a :=
      State.loadCopy_chooseTarget hdirv hvalid.2 hvalid.1
    have hwait : v.waitingMigration = none := by
      have hflight' : v.mig.flight = none := by rw [hend]; exact hflight
      rw [State.waitingMigration, hflight', Option.filter_none]
    have hblocks : v.physBlocks = s.physBlocks := by rw [hend]; rfl
    rw [hstart] at he ⊢
    refine ⟨?_, rfl, rfl, rfl, congrArg some htarget, ?_, ?_, ?_, fun hpass => (he ?_).trans ?_⟩
    · rw [hend]; rfl
    · show (v.dir.markInvalid v.dir.chooseTarget).known x = _
      rw [htarget, CommitUnit.known_markInvalid_other, hdirv, State.loadCopy_known hvalid.1, hfold]
    · rw [← htarget]
      exact v.startedDir_known
    · show some (v.takeSnapshot (v.dir.gen + 1)) = _
      rw [State.takeSnapshot_loaded hwait hkept, hgen, hmap, hblocks]
    · rw [hend]; exact hpass
    · rw [hend]; rfl
  · rw [mountChoice_foreign ha hb hf, ← hx] at hverdicts
    obtain ⟨cmd, irq, hend⟩ := u.mountEnded_frame .foreign (some x)
    obtain ⟨c, e, ht, he⟩ := State.completeKind_settles (k := fun g => g matches .mountRead _) hq.2.2.1 hq.1 hg rfl
      ((hlast hw).trans ((State.mountComplete_unloaded hverdicts (.inr rfl)).trans hend)) rfl hq.2.2.2.1
    refine ⟨_, congrArg Host.Outcome.next ht, rfl, rfl, rfl, rfl, fun hpass => (he hpass).trans ?_⟩
    rw [← hfold x]
    rfl

/-! ### What the filler asks for (R53, R179) -/

theorem blocksOf_bounds (code : BitVec 2) : 512 ≤ blocksOf code ∧ blocksOf code ≤ 4096 := by
  have := code.isLt
  have hlo : 2 ^ 0 ≤ 2 ^ code.toNat := Nat.pow_le_pow_right (by omega) (by omega)
  have hhi : 2 ^ code.toNat ≤ 2 ^ 3 := Nat.pow_le_pow_right (by omega) (by omega)
  unfold blocksOf
  omega

section
variable {s : State} {f : Filler}

/-- The copy that a copy stage writes. -/
theorem State.fillerCopy_eq (h : f.stage = .copyA ∨ f.stage = .copyB) : s.fillerCopy f =
    (if f.stage = .copyB then .b else .a, s.formatRecord (if f.stage = .copyB then 2 else 1)) := by
  rcases h with h | h <;> simp [State.fillerCopy, h]

theorem State.copyBlock_eq (c : Copy) : s.copyBlock c = BitVec.ofNat 12 (s.physBlocks - if c = .b then 1 else 2) := by
  cases c <;> rfl

/-- The word that an attempt of the filler writes. -/
def State.fillerWord (s : State) (f : Filler) : Word :=
  if f.word = 0 then 0 else (s.formatRecord (if f.stage = .copyB then 2 else 1)).wordAt f.word.toNat

theorem State.fillerGrant_copy (h : f.stage = .copyA ∨ f.stage = .copyB) : s.fillerGrant f = match f.phase with
    | .writing => .fillerWrite (s.copyAddr (if f.stage = .copyB then .b else .a) f.word) (freshWord (s.fillerWord f))
    | .readback => .fillerRead (s.copyAddr (if f.stage = .copyB then .b else .a) f.word)
    | .closing => .fillerWrite (s.copyAddr (if f.stage = .copyB then .b else .a) 0) (freshWord signature) := by
  have hcopy := State.fillerCopy_eq (s := s) h
  have hword : (s.fillerCopy f).2.attemptWord f.word.toNat = s.fillerWord f := by
    rw [hcopy, Snapshot.attemptWord_toNat]
    rfl
  rcases h with h | h <;> simp only [State.fillerGrant, h, hword] <;> simp only [hcopy, h] <;> rfl

theorem State.lastFill_iff (a : Addr) : a = s.lastFill ↔ a.toNat = (s.physBlocks - 2) * 256 - 1 := by
  have hb := blocksOf_bounds s.pCode
  have hlt : (s.physBlocks - 2) * 256 - 1 < 2 ^ 20 := by
    unfold State.physBlocks
    omega
  rw [State.lastFill, ← BitVec.toNat_inj, BitVec.toNat_ofNat, Nat.mod_eq_of_lt hlt]

/-! ### What a completion does (R179) -/

theorem State.fillAdvance_eq (hf : s.filler = some f) : s.fillAdvance = { s with
    filler := some (if f.addr.toNat = (s.physBlocks - 2) * 256 - 1
      then { f with stage := .copyA, word := 0, phase := .writing, attempt := 1 } else { f with addr := f.addr + 1 }) } := by
  simp only [State.fillAdvance, hf, State.lastFill_iff]
  split <;> rfl

theorem State.fillerReadBack_fresh (hf : s.filler = some f) (h : f.stage = .copyA ∨ f.stage = .copyB) (d : Word) :
    s.fillerReadBack (decodeWord (freshWord d)) =
      if d = s.fillerWord f then { s with
        filler := some (if f.word = 255 then { f with phase := .closing } else { f with word := f.word + 1 }) }
      else if f.attempt < 3 then
        { s with filler := some { f with attempt := f.attempt + 1, word := 0, phase := .writing } }
      else s.nextCopyStage f := by
  have hpass : readbackPasses (decodeWord (freshWord d)) ((s.fillerCopy f).2.attemptWord f.word.toNat) =
      Decidable.decide (d = s.fillerWord f) := by
    rw [State.fillerCopy_eq h, Snapshot.attemptWord_toNat]
    exact readbackPasses_fresh d (s.fillerWord f)
  simp only [State.fillerReadBack, hf, hpass, decide_eq_true_eq]
  by_cases hd : d = s.fillerWord f
  · rw [if_pos hd, if_pos hd]
    split <;> rfl
  · rw [if_neg hd, if_neg hd]

/-- FORMAT ends, and the command with it. -/
theorem State.endFormat_frame (s : State) (f : Filler) : ∃ e i ev, s.endFormat f = { s with
    dev := { s.dev with
      state := if f.wroteA || f.wroteB then .ready else .unformatted
      outcome := formatOutcome f.wroteA f.wroteB
      dirReadonly := (f.wroteA || f.wroteB) && !(f.wroteA && f.wroteB) }
    map := if f.wroteA || f.wroteB then s.map else BlockMap.empty
    dir := { s.dir with
      gen := formatGen f.wroteA f.wroteB
      copyA := if f.wroteA then ⟨true, 1⟩ else ⟨false, 0⟩
      copyB := if f.wroteB then ⟨true, 2⟩ else ⟨false, 0⟩ }
    faults := FaultTable.empty
    filler := none
    scrub := { s.scrub with ticks := 0 }
    cmd := e, irq := i, events := ev } ∧
    ∀ v, s.cmd.running = some (.format v) → e.running = none ∧ i.cmdDone = true ∧
      e.result = formatResult f.wroteA f.wroteB := by
  unfold State.endFormat
  dsimp only [State.clearTicks]
  split
  · exact ⟨_, _, _, rfl, fun _ _ => ⟨rfl, rfl, rfl⟩⟩
  · rename_i h
    exact ⟨_, _, _, rfl, fun v hv => absurd hv (h v)⟩

theorem State.fillerWritten_zero (hf : s.filler = some f) (h : f.stage = .zero) : s.fillerWritten = { s with
    filler := some (if f.word = 0 then { f with word := 1 } else { f with stage := .fill, addr := 0, word := 0 }) } := by
  simp only [State.fillerWritten, hf, h]
  split <;> rfl

theorem State.fillerWritten_word (hf : s.filler = some f) (h : f.stage = .copyA ∨ f.stage = .copyB)
    (hp : f.phase = .writing) : s.fillerWritten = { s with
      filler := some (if f.word = 255 then { f with word := 0, phase := .readback } else { f with word := f.word + 1 }) } := by
  rcases h with h | h <;> simp only [State.fillerWritten, hf, h, hp] <;> split <;> rfl

theorem State.fillerWritten_closing (hf : s.filler = some f) (h : f.stage = .copyA ∨ f.stage = .copyB)
    (hp : f.phase = .closing) : s.fillerWritten = s.nextCopyStage f.markWritten := by
  rcases h with h | h <;> simp only [State.fillerWritten, hf, h, hp]

theorem State.nextCopyStage_a (h : f.stage = .copyA) : s.nextCopyStage f = { s with
    filler := some { f with stage := .copyB, word := 0, phase := .writing, attempt := 1 } } := by
  simp only [State.nextCopyStage, h]

theorem State.nextCopyStage_b (h : f.stage = .copyB) : s.nextCopyStage f = s.endFormat f := by
  simp only [State.nextCopyStage, h]

end

/-- Settles O59: the grants asked for, the words written and read, and the ends of the copy stages. -/
theorem fillerStages : Obligations.FillerStages := by
  intro s f a c d hq hformat hf inCopy block content expected wrote read ended
  have finish {g : Grant} {k : Grant → Bool} {t : State} (hg : s.port.grant = some g) (hk : k g = true)
      (ht : s.clearGrant.completion g = t) (h : t.port.stopped = s.port.stopped ∧ t.scrub = s.scrub ∧ t.map = s.map ∧
        t.pCode = s.pCode ∧ t.dir = s.dir) : s.completeKind k = t :=
    State.completeKind_quiet hq hg hk ht h.1 h.2.1 h.2.2.1 h.2.2.2.1 h.2.2.2.2
  have ends {g : Grant} {k : Grant → Bool} {p : Port} {m : CellArray} {f' : Filler} (hg : s.port.grant = some g)
      (hk : k g = true) (ht : s.clearGrant.completion g = ({ s with port := p, array := m } : State).endFormat f')
      (hp : p.stopped = s.port.stopped) :
      ∃ t, s.completeKind k = t ∧ t.array = m ∧ ended t f'.wroteA f'.wroteB := by
    obtain ⟨e, i, ev, hend, hcmd⟩ := State.endFormat_frame ({ s with port := p, array := m } : State) f'
    obtain ⟨sc, ev', hk', -⟩ := State.completeKind_settles hq.2.2.1 hq.1 hg hk (ht.trans hend) hp hq.2.2.2.1
    refine ⟨_, hk', rfl, rfl, ?_, ?_, ?_, rfl, fun v hv => ?_⟩
    · dsimp only
      cases f'.wroteA <;> cases f'.wroteB <;> rfl
    · dsimp only
      cases f'.wroteA <;> cases f'.wroteB <;> rfl
    · dsimp only
      cases f'.wroteA <;> cases f'.wroteB <;> rfl
    · obtain ⟨hrun, hdone, hres⟩ := hcmd v hv
      refine ⟨hrun, hdone, hres.trans ?_⟩
      cases f'.wroteA <;> cases f'.wroteB <;> rfl
  have hread (hc : inCopy) (hcell : s.cell a = freshWord d) : s.clearGrant.completion (.fillerRead a) =
      if d = expected then read (if f.word = 255 then { f with phase := .closing } else { f with word := f.word + 1 })
      else if f.attempt < 3 then read { f with attempt := f.attempt + 1, word := 0, phase := .writing }
      else (s.readOver a).nextCopyStage f := by
    have h := State.fillerReadBack_fresh (s := s.readOver a) hf hc d
    rw [← hcell] at h
    exact h
  refine ⟨fun h => ?_, fun h => ?_, fun h => ?_, fun hg h hw => ?_, fun hg h hw => ?_, fun hg hc h => ?_,
    fun hg hc h => ?_, fun hg h hp => ?_, fun hg h hcell hd => ?_, fun hg h hcell hd ha => ?_,
    fun hg h hcell hd ha => ?_, fun hg h hcell hd ha hb => ?_, fun hg h hp => ?_, fun hg h hp => ?_⟩
  · simp only [State.fillerGrant, h]
    by_cases hw : f.word = 0
    · rw [if_pos hw, if_pos hw]
      rfl
    · rw [if_neg hw, if_neg hw]
      rfl
  · simp only [State.fillerGrant, h]
  · have hblock : s.copyBlock (if f.stage = .copyB then .b else .a) = block := by
      rw [State.copyBlock_eq]
      rcases h with h | h <;> simp [block, h]
    rw [State.fillerGrant_copy h]
    simp only [State.copyAddr, hblock]
    rfl
  · exact congrArg Host.Outcome.next (finish hg rfl ((State.fillerWritten_zero (s := s.writeOver a c) hf h).trans
      (congrArg wrote (if_pos hw))) ⟨rfl, rfl, rfl, rfl, rfl⟩)
  · exact congrArg Host.Outcome.next (finish hg rfl ((State.fillerWritten_zero (s := s.writeOver a c) hf h).trans
      (congrArg wrote (if_neg hw))) ⟨rfl, rfl, rfl, rfl, rfl⟩)
  · subst hc
    exact congrArg Host.Outcome.next (finish hg rfl ((State.fillAdvance_eq (s := s.writeOver a (freshWord 0)) hf).trans
      (congrArg wrote (if_neg h))) ⟨rfl, rfl, rfl, rfl, rfl⟩)
  · subst hc
    exact congrArg Host.Outcome.next (finish hg rfl ((State.fillAdvance_eq (s := s.writeOver a (freshWord 0)) hf).trans
      (congrArg wrote (if_pos h))) ⟨rfl, rfl, rfl, rfl, rfl⟩)
  · exact congrArg Host.Outcome.next (finish hg rfl (State.fillerWritten_word (s := s.writeOver a c) hf h hp)
      ⟨rfl, rfl, rfl, rfl, rfl⟩)
  · exact congrArg Host.Outcome.next (finish hg rfl ((hread h hcell).trans (if_pos hd)) ⟨rfl, rfl, rfl, rfl, rfl⟩)
  · exact congrArg Host.Outcome.next (finish hg rfl ((hread h hcell).trans ((if_neg hd).trans (if_pos ha)))
      ⟨rfl, rfl, rfl, rfl, rfl⟩)
  · exact congrArg Host.Outcome.next (finish hg rfl ((hread (.inl h) hcell).trans ((if_neg hd).trans
      ((if_neg (by omega)).trans (State.nextCopyStage_a (s := s.readOver a) h)))) ⟨rfl, rfl, rfl, rfl, rfl⟩)
  · obtain ⟨t, ht, harray, hended⟩ := ends hg (k := Grant.isFillerCopy) rfl ((hread (.inr h) hcell).trans ((if_neg hd).trans
      ((if_neg (by omega)).trans (State.nextCopyStage_b (s := s.readOver a) h)))) rfl
    rw [hb] at hended
    exact ⟨t, congrArg Host.Outcome.next ht, harray, hended⟩
  · have hmark : f.markWritten = { f with wroteA := true } := by simp only [Filler.markWritten, h]
    exact congrArg Host.Outcome.next (finish hg rfl ((State.fillerWritten_closing (s := s.writeOver a c) hf (.inl h)
      hp).trans (by rw [hmark]; exact State.nextCopyStage_a (f := { f with wroteA := true }) h)) ⟨rfl, rfl, rfl, rfl, rfl⟩)
  · have hmark : f.markWritten = { f with wroteB := true } := by simp only [Filler.markWritten, h]
    have hclose : s.clearGrant.completion (.fillerWrite a c) = (s.writeOver a c).endFormat { f with wroteB := true } :=
      (State.fillerWritten_closing (s := s.writeOver a c) hf (.inr h) hp).trans
        (by rw [hmark]; exact State.nextCopyStage_b (f := { f with wroteB := true }) h)
    obtain ⟨t, ht, harray, hended⟩ := ends (k := Grant.isFillerCopy) hg rfl hclose rfl
    exact ⟨t, congrArg Host.Outcome.next ht, harray, hended⟩

/-! ### What the channels' part of a completion leaves (R63, R73, R74) -/

/-- `t` differs from `s` in the channels, the acceptance count, the event queue, the host port and DIAG alone. -/
def OnlyChannels (s t : State) : Prop :=
  t = { s with chans := t.chans, nextPos := t.nextPos, events := t.events, host := t.host, diag := t.diag }

namespace OnlyChannels

theorem refl (s : State) : OnlyChannels s s := rfl

theorem trans {s t u : State} (h : OnlyChannels s t) (k : OnlyChannels t u) : OnlyChannels s u := by
  unfold OnlyChannels at h k ⊢
  rw [k, h]

variable (s : State)

theorem setChan (n : Fin 4) (c : Channel) : OnlyChannels s (s.setChan n c) := rfl
theorem post (r : EventRecord) : OnlyChannels s (s.post r) := rfl
theorem answer (v : Half) : OnlyChannels s (s.answer v) := rfl
theorem unhold : OnlyChannels s s.unhold := rfl
theorem ignoreWrite (n : Fin 4) : OnlyChannels s (s.ignoreWrite n) := rfl
theorem dropOthers (n : Fin 4) (a : Addr) : OnlyChannels s (s.dropOthers n a) := rfl
theorem dropGrant (n : Fin 4) : OnlyChannels s (s.dropGrant n) := rfl
theorem popEntry (n : Fin 4) : OnlyChannels s (s.popEntry n) := rfl

theorem checkHead (n : Fin 4) : OnlyChannels s (s.checkHead n) := by
  unfold State.checkHead
  dsimp only
  split
  · split
    · split
      · exact (setChan s _ _).trans (post _ _)
      · exact refl s
    · exact refl s
  · exact refl s

theorem consume (n : Fin 4) : OnlyChannels s (s.consume n) := (setChan s n _).trans (checkHead _ n)

theorem loadSide (side : Option Side) : OnlyChannels s (s.loadSide side) := by
  cases side <;> rfl

theorem deliver (n : Fin 4) (high : Bool) (e : ReadEntry) : OnlyChannels s (s.deliver n high e) := by
  unfold State.deliver
  dsimp only
  split
  · exact ((answer s _).trans (loadSide _ _)).trans (consume _ _)
  · exact (answer s _).trans (loadSide _ _)

theorem accept (n : Fin 4) (v : WriteValue) : OnlyChannels s (s.accept n v) := by
  unfold State.accept
  dsimp only
  split <;> rfl

theorem settleHeld : OnlyChannels s s.settleHeld := by
  unfold State.settleHeld
  split
  · exact refl s
  · dsimp only
    split
    · split
      · exact (unhold s).trans (answer _ _)
      · split
        · exact (unhold s).trans (deliver _ _ _ _)
        · exact refl s
    · split
      · exact (unhold s).trans (ignoreWrite _ _)
      · split
        · split
          · exact (unhold s).trans (accept _ _ _)
          · exact refl s
        · exact refl s

theorem fetchArrives (n : Fin 4) (e : ReadEntry) : OnlyChannels s (s.fetchArrives n e) := by
  unfold State.fetchArrives
  dsimp only
  split
  · exact ((setChan s _ _).trans (checkHead _ _)).trans (settleHeld _)
  · exact dropGrant s n

theorem drained (n : Fin 4) : OnlyChannels s (s.drained n) := by
  unfold State.drained
  dsimp only
  split
  · exact setChan s _ _
  · exact refl s

theorem entryLeaves (n : Fin 4) : OnlyChannels s (s.entryLeaves n) := by
  unfold State.entryLeaves
  split
  · exact ((popEntry s _).trans (drained _ _)).trans (settleHeld _)
  · exact refl s

theorem mergeRefused (n : Fin 4) (a : Addr) (b : Block) (m : ReadMark) : OnlyChannels s (s.mergeRefused n a b m) := by
  unfold State.mergeRefused
  dsimp only
  split
  · refine (((popEntry s n).trans ?_).trans (post _ _)).trans (settleHeld _)
    split
    · exact setChan _ _ _
    · exact drained _ _
  · exact refl s

variable {s} {t : State} (h : OnlyChannels s t)
include h

theorem faults : t.faults = s.faults := (congrArg State.faults h).trans rfl
theorem mig : t.mig = s.mig := (congrArg State.mig h).trans rfl
theorem map : t.map = s.map := (congrArg State.map h).trans rfl
theorem dir : t.dir = s.dir := (congrArg State.dir h).trans rfl
theorem dev : t.dev = s.dev := (congrArg State.dev h).trans rfl
theorem cmd : t.cmd = s.cmd := (congrArg State.cmd h).trans rfl
theorem port : t.port = s.port := (congrArg State.port h).trans rfl
theorem pins : t.pins = s.pins := (congrArg State.pins h).trans rfl
theorem pCode : t.pCode = s.pCode := (congrArg State.pCode h).trans rfl
theorem array : t.array = s.array := (congrArg State.array h).trans rfl
theorem scrub : t.scrub = s.scrub := (congrArg State.scrub h).trans rfl
theorem spareCtrl : t.spareCtrl = s.spareCtrl := (congrArg State.spareCtrl h).trans rfl
theorem pending : t.pending = s.pending := (congrArg State.pending h).trans rfl

end OnlyChannels

/-! ### A report and the record of its block (R124, R127 to R129) -/

theorem decodeWord_oneFlip {c : Codeword} {d : Word} {i : Nat} (hi : i < 40) (h : c = flipBit (freshWord d) i) :
    decodeWord c = { cls := .corrected, correctedFlag := true, data := d, tag := false } := by
  subst h
  exact decodeWord_flipBit d false hi

theorem FaultTable.recordOf_touch (t : FaultTable) (b c : Block) : (t.touch b).recordOf c = t.recordOf c := rfl

section
variable {s : State} {rep : Report} {r : FaultRecord}

/-- R124: the record of a block once the report is counted. -/
def State.countedRecord (s : State) (rep : Report) (r : FaultRecord) : FaultRecord :=
  { r.count rep with logical := s.refreshLogical rep.phys r.logical }

theorem State.countReport_found (h : s.faults.recordOf rep.phys = some r) : ∃ i, s.faults.slotOf rep.phys = some i ∧
    s.countReport rep = some ((s.faults.setSlot i (some (s.countedRecord rep r))).touch rep.phys) := by
  obtain ⟨i, hi, -⟩ := FaultTable.recordOf_eq_some_iff.mp h
  refine ⟨i, hi, ?_⟩
  simp only [State.countReport, hi, h]
  rfl

theorem State.countReport_recordOf {t : FaultTable} (h : s.faults.recordOf rep.phys = some r)
    (ht : s.countReport rep = some t) : t.recordOf rep.phys = some (s.countedRecord rep r) := by
  obtain ⟨i, hi, hcount⟩ := State.countReport_found h
  cases hcount.symm.trans ht
  rw [FaultTable.recordOf_touch]
  exact FaultTable.recordOf_setSlot_self hi (FaultTable.recordOf_phys (r := r) h)

theorem State.countReport_new (h : s.faults.recordOf rep.phys = none) :
    s.countReport rep = s.faults.insert (newRecord rep (s.refreshLogical rep.phys none)) := by
  simp only [State.countReport, FaultTable.recordOf_eq_none_iff.mp h]

theorem State.takeReport_counted {t : FaultTable} (hc : s.spareCtrl.reportCorrected = false)
    (h : s.countReport rep = some t) : s.takeReport rep = ({ s with faults := t } : State).testRecord rep.phys := by
  simp only [State.takeReport, h, hc, Bool.false_and, Bool.false_eq_true, if_false]

theorem State.postCorrected_off (hc : s.spareCtrl.reportCorrected = false) (logical : Option Block) (detail : Half) :
    s.postCorrected rep logical detail = s := if_neg (by simp [hc])

theorem State.takeReport_untracked (hc : s.spareCtrl.reportCorrected = false) (h : s.countReport rep = none) :
    s.takeReport rep = { s with
      faults := { s.faults with untracked := satInc s.faults.untracked, full := true }
      events := if s.faults.full then s.events else s.events.offer
        { kind := .faultTableFull, source := rep.source, phys := some rep.phys
          logical := s.refreshLogical rep.phys none, offset := some rep.offset, detail := satInc s.faults.untracked } } := by
  have htake : s.takeReport rep = s.untrackedReport rep := by rw [State.takeReport, h]
  rw [htake, State.untrackedReport]
  refine (State.postCorrected_off ?_ _ _).trans ?_
  · dsimp only
    split <;> exact hc
  · dsimp only
    split <;> rfl

theorem reportOf_corrected {a : Addr} {src : Source} {r : DecodeResult} (h : r.cls = .corrected) :
    reportOf a src r = some { phys := blockOf a, offset := offsetOf a, bad := false, source := src } := by
  rw [reportOf, h]

theorem reportOf_uncorrectable {a : Addr} {src : Source} {r : DecodeResult} (h : r.cls = .uncorrectable) :
    reportOf a src r = some { phys := blockOf a, offset := offsetOf a, bad := true, source := src } := by
  rw [reportOf, h]

/-! ### The test after a report (R129) -/

theorem State.testRecord_asks {b lam : Block} (h : s.faults.recordOf b = some r) (hd : s.dev.state = .ready)
    (hb : s.servedBy b = some lam) :
    s.testRecord b = if migrationTest s.spareCtrl r then s.requestMigration lam .auto else s := by
  simp only [State.testRecord, h, hd, ne_eq, not_true_eq_false, if_false, hb]

theorem migrationTest_iff {c : SpareCtrl} (h : r.state = .observed) : migrationTest c r = true ↔
    c.threshold ≠ 0 ∧ c.threshold ≤ r.corrected ∨ c.autoUncorrectable = true ∧ r.uncorrectable ≠ 0 := by
  simp [migrationTest, h]

end

/-- The record of a block at a report that may ask for its migration. -/
structure State.Asking (x : State) (b : Block) (r : FaultRecord) (lam : Block) : Prop where
  quietCtrl : x.spareCtrl.reportCorrected = false
  ready : x.dev.state = .ready
  record : x.faults.recordOf b = some r
  observed : r.state = .observed
  served : x.servedBy b = some lam
  home : x.home lam = b
  flying : x.mig.flight.isSome = true
  accepted : x.migAnswer lam = .accepted

/-- A CORRECTED report counts at the record, and asks for a migration where the test says so. -/
theorem State.Asking.takeReport {x : State} {b lam : Block} {r : FaultRecord} (h : x.Asking b r lam) (o : Offset)
    (src : Source) : ∃ f q, x.takeReport { phys := b, offset := o, bad := false, source := src } = { x with
        faults := f
        mig := if x.spareCtrl.threshold ≠ 0 ∧ x.spareCtrl.threshold ≤ satInc r.corrected ∨
              x.spareCtrl.autoUncorrectable = true ∧ r.uncorrectable ≠ 0
          then { x.mig with queue := x.mig.queue ++ [⟨lam, .auto⟩] } else x.mig } ∧
      f.recordOf b = some q ∧ q.corrected = satInc r.corrected ∧ q.uncorrectable = r.uncorrectable ∧ q.lastSource = src ∧
      q.state = if x.spareCtrl.threshold ≠ 0 ∧ x.spareCtrl.threshold ≤ satInc r.corrected ∨
          x.spareCtrl.autoUncorrectable = true ∧ r.uncorrectable ≠ 0 then .queued else .observed := by
  let rep : Report := { phys := b, offset := o, bad := false, source := src }
  obtain ⟨i, -, hcount⟩ := State.countReport_found (rep := rep) h.record
  generalize ht : (x.faults.setSlot i (some (x.countedRecord rep r))).touch rep.phys = t at hcount
  have hrec : t.recordOf b = some (x.countedRecord rep r) := State.countReport_recordOf h.record hcount
  let y : State := { x with faults := t }
  have htest := State.testRecord_asks (s := y) hrec h.ready h.served
  have hiff := migrationTest_iff (c := x.spareCtrl) (r := x.countedRecord rep r) h.observed
  have hreport : x.takeReport rep = y.testRecord b := State.takeReport_counted h.quietCtrl hcount
  by_cases hfires : x.spareCtrl.threshold ≠ 0 ∧ x.spareCtrl.threshold ≤ satInc r.corrected ∨
      x.spareCtrl.autoUncorrectable = true ∧ r.uncorrectable ≠ 0
  · rw [if_pos (hiff.mpr hfires)] at htest
    have hhome : y.home lam = b := h.home
    have hwaits := State.requestMigration_waits (s := y) (o := .auto) h.accepted (.inl h.flying)
    refine ⟨(y.requested lam .auto).faults,
      { x.countedRecord rep r with state := .queued, logical := y.refreshLogical b (x.countedRecord rep r).logical },
      (hreport.trans (htest.trans (hwaits.trans (State.requested_eq y lam .auto)))).trans
      ?_, ?_, ?_, ?_, ?_, ?_⟩
    · rw [if_pos hfires]
    · rw [State.requested, hhome]
      have hstate : (x.countedRecord rep r).state = .observed := h.observed
      exact (State.notice_recordOf hrec).trans (congrArg some (if_pos (by simp [hstate])))
    · rfl
    · rfl
    · rfl
    · rw [if_pos hfires]
  · rw [if_neg (fun hm => hfires (hiff.mp hm))] at htest
    refine ⟨t, x.countedRecord rep r, (hreport.trans htest).trans ?_, hrec, rfl, rfl, rfl, ?_⟩
    · rw [if_neg hfires]
    · rw [if_neg hfires]
      exact h.observed

theorem OnlyChannels.asking {s t : State} {b lam : Block} {r : FaultRecord} (h : OnlyChannels s t)
    (ha : s.Asking b r lam) : t.Asking b r lam := by
  rw [h]
  exact ⟨ha.quietCtrl, ha.ready, ha.record, ha.observed, ha.served, ha.home, ha.flying, ha.accepted⟩

/-- A fetched word with one flipped bit: its report and its channel, in either order (R160). -/
theorem State.fetchDone_corrected {s : State} {n : Fin 4} {l p : Addr} {d : Word} {i : Nat} (hi : i < 40)
    (hcell : s.cell p = flipBit (freshWord d) i) : ∃ e : ReadEntry, e.mark = none ∧
    s.fetchDone n l p = (s.noteRead p).eitherWay
      (fun x => x.takeReport { phys := blockOf p, offset := offsetOf p, bad := false, source := hostSource n })
      (fun x => x.fetchArrives n e) := by
  rw [State.fetchDone, decodeWord_oneFlip hi hcell, reportOf_corrected rfl]
  exact ⟨_, rfl, rfl⟩

/-- Settles O57: the report before or after the channel's part. -/
theorem thresholdAsksForMigration : Obligations.ThresholdAsksForMigration := by
  intro s n l p d i r m lam hq hd hg _ hi hcell hc hrec hobs hserved hhome hm hne hqueue hroom fires
  have hacc : s.migAnswer lam = .accepted := (State.migAnswer_accepted_iff s lam).mpr
    ⟨fun x hx => by cases hm.symm.trans hx; exact hne, hqueue, hroom⟩
  have hasking : s.Asking (blockOf p) r lam := ⟨hc, hd, hrec, hobs, hserved, hhome, by simp [hm], hacc⟩
  obtain ⟨e, -, hdone⟩ := State.fetchDone_corrected (s := s.clearGrant) (n := n) (l := l) hi hcell
  have finish {t : State} (ht : s.clearGrant.completion (.wordRead n l p) = t)
      (h : t.port.stopped = s.port.stopped ∧ t.scrub = s.scrub ∧ t.map = s.map ∧ t.pCode = s.pCode ∧ t.dir = s.dir) :
      exec .fetchComplete s = .next t :=
    congrArg _ (State.completeKind_quiet hq hg rfl ht h.1 h.2.1 h.2.2.1 h.2.2.2.1 h.2.2.2.2)
  let x := (s.clearGrant.noteRead p).drawn
  have hx : x.Asking (blockOf p) r lam :=
    ⟨hasking.1, hasking.2, hasking.3, hasking.4, hasking.5, hasking.6, hasking.7, hasking.8⟩
  rcases State.eitherWay_orders (s.clearGrant.noteRead p)
    (fun x => x.takeReport { phys := blockOf p, offset := offsetOf p, bad := false, source := hostSource n })
    (fun x => x.fetchArrives n e) with hway | hway
  · obtain ⟨f, q, htake, hq', hcor, hunc, hsrc, hst⟩ := hx.takeReport (offsetOf p) (hostSource n)
    have harrive := OnlyChannels.fetchArrives
      (x.takeReport { phys := blockOf p, offset := offsetOf p, bad := false, source := hostSource n }) n e
    generalize ht : State.fetchArrives _ n e = t at harrive
    have hend : exec .fetchComplete s = .next t := finish (hdone.trans (hway.trans ht))
      ⟨by rw [harrive.port, htake]; rfl, by rw [harrive.scrub, htake]; rfl, by rw [harrive.map, htake]; rfl,
        by rw [harrive.pCode, htake]; rfl, by rw [harrive.dir, htake]; rfl⟩
    refine ⟨t, q, hend, ?_, hcor, hunc, hsrc, ?_, ?_, fun hf => ⟨hst.trans (if_pos hf), ?_⟩,
      fun hf => ⟨hst.trans (if_neg hf), ?_⟩⟩
    · rw [harrive.faults, htake]; exact hq'
    · rw [harrive.array, htake]; rfl
    · rw [harrive.map, htake]; rfl
    · rw [harrive.mig, htake]; exact if_pos hf
    · rw [harrive.mig, htake]; exact if_neg hf
  · have harrive := OnlyChannels.fetchArrives x n e
    generalize hy : State.fetchArrives x n e = y at harrive
    have hway' : (s.clearGrant.noteRead p).eitherWay _ _ =
      y.takeReport { phys := blockOf p, offset := offsetOf p, bad := false, source := hostSource n } := 
        hway.trans (by rw [← hy])
    obtain ⟨f, q, htake, hq', hcor, hunc, hsrc, hst⟩ := (harrive.asking hx).takeReport (offsetOf p) (hostSource n)
    rw [harrive.spareCtrl] at hst htake
    have hend := finish (hdone.trans (hway'.trans htake))
      ⟨(congrArg Port.stopped harrive.port).trans rfl, harrive.scrub, harrive.map, harrive.pCode, harrive.dir⟩
    refine ⟨_, q, hend, hq', hcor, hunc, hsrc, harrive.array, harrive.map, fun hf => ⟨hst.trans (if_pos hf), ?_⟩,
      fun hf => ⟨hst.trans (if_neg hf), ?_⟩⟩
    · dsimp only
      rw [harrive.mig]
      exact if_pos hf
    · dsimp only
      rw [harrive.mig]
      exact if_neg hf

/-! ### What the requester's part of a completion leaves (R88, R95)

`Aside`: the pins, P, the array, the port and the commands that wait are as they were; the device is not fenced, and
with no cycle held the host port is as it was. -/

structure Aside (s t : State) : Prop where
  pins : t.pins = s.pins
  pCode : t.pCode = s.pCode
  array : t.array = s.array
  port : t.port = s.port
  pending : t.pending = s.pending
  unfenced : s.dev.state ≠ .fenced → t.dev.state ≠ .fenced
  host : s.host.held = none → t.host = s.host

namespace Aside

theorem refl (s : State) : Aside s s := ⟨rfl, rfl, rfl, rfl, rfl, id, fun _ => rfl⟩

theorem trans {s t u : State} (h : Aside s t) (k : Aside t u) : Aside s u where
  pins := k.pins.trans h.pins
  pCode := k.pCode.trans h.pCode
  array := k.array.trans h.array
  port := k.port.trans h.port
  pending := k.pending.trans h.pending
  unfenced := k.unfenced ∘ h.unfenced
  host hheld := by
    have hhost := h.host hheld
    exact (k.host (by rw [hhost, hheld])).trans hhost

theorem of_engines {s t : State} (h : OnlyEngines s t) : Aside s t :=
  ⟨h.pins, h.pCode, h.array, h.port, h.pending, fun hs => by rw [h.state]; exact hs, fun _ => h.host⟩

theorem of_channels {s t : State} (h : OnlyChannels s t) (hhost : s.host.held = none → t.host = s.host) : Aside s t :=
  ⟨h.pins, h.pCode, h.array, h.port, h.pending, fun hs => by rw [h.dev]; exact hs, hhost⟩

variable (s : State)

theorem setChan (n : Fin 4) (c : Channel) : Aside s (s.setChan n c) := of_channels (.setChan s n c) fun _ => rfl
theorem popEntry (n : Fin 4) : Aside s (s.popEntry n) := setChan s n _
theorem post (r : EventRecord) : Aside s (s.post r) := of_channels (.post s r) fun _ => rfl
theorem setChoices (k : Nat) : Aside s { s with choices := k } := of_engines (.setChoices s k)
theorem complete (r : Result) : Aside s (s.complete r) := of_engines (.complete s r)
theorem setFiller (f : Option Filler) : Aside s { s with filler := f } := of_engines (.setFiller s f)
theorem setMount (m : MountReader) : Aside s { s with mount := m } := of_engines (.setMount s m)

theorem settleHeld : Aside s s.settleHeld :=
  of_channels (.settleHeld s) fun h => congrArg State.host (State.settleHeld_none h)

theorem checkHead (n : Fin 4) : Aside s (s.checkHead n) := by
  refine of_channels (.checkHead s n) fun _ => ?_
  unfold State.checkHead
  dsimp only
  split
  · split
    · split <;> rfl
    · rfl
  · rfl

theorem fetchArrives (n : Fin 4) (e : ReadEntry) : Aside s (s.fetchArrives n e) := by
  unfold State.fetchArrives
  dsimp only
  split
  · exact ((setChan s _ _).trans (checkHead _ _)).trans (settleHeld _)
  · exact setChan s _ _

theorem drained (n : Fin 4) : Aside s (s.drained n) := by
  unfold State.drained
  dsimp only
  split
  · exact setChan s _ _
  · exact refl s

theorem entryLeaves (n : Fin 4) : Aside s (s.entryLeaves n) := by
  unfold State.entryLeaves
  split
  · exact ((popEntry s n).trans (drained _ _)).trans (settleHeld _)
  · exact refl s

theorem mergeRefused (n : Fin 4) (a : Addr) (b : Block) (m : ReadMark) : Aside s (s.mergeRefused n a b m) := by
  unfold State.mergeRefused
  dsimp only
  split
  · refine (((popEntry s n).trans ?_).trans (post _ _)).trans (settleHeld _)
    split
    · exact setChan _ _ _
    · exact drained _ _
  · exact refl s

theorem eitherWay {f g : State → State} (hf : ∀ x, Aside x (f x)) (hg : ∀ x, Aside x (g x)) :
    Aside s (s.eitherWay f g) := by
  rcases s.eitherWay_cases f g with h | h <;> rw [h]
  · exact ((setChoices s _).trans (hf _)).trans (hg _)
  · exact ((setChoices s _).trans (hg _)).trans (hf _)

theorem withReport (rep : Option Report) {f : State → State} (hf : ∀ x, Aside x (f x)) : Aside s (s.withReport rep f) := by
  unfold State.withReport
  split
  · exact hf s
  · exact eitherWay s (fun x => of_engines (.takeReport x _)) hf

theorem rangeEvent_from (f : State → State) : ∃ x, Aside s x ∧ s.rangeEvent f = f x := by
  unfold State.rangeEvent
  split
  · dsimp only
    split
    · exact ⟨_, (setChoices s _).trans (complete _ _), rfl⟩
    · exact ⟨_, setChoices s _, rfl⟩
  · exact ⟨s, refl s, rfl⟩

/-! #### The mount reader and the filler -/

theorem leaveMounting (o : MountOutcome) : Aside s (s.leaveMounting o) := by
  have hdev : Aside s (({ s with dev := { s.dev with state := stateOfOutcome o } } : State).clearTicks) :=
    ⟨rfl, rfl, rfl, rfl, rfl, fun _ => by cases o <;> exact DevState.noConfusion, fun _ => rfl⟩
  unfold State.leaveMounting
  dsimp only
  split
  · exact hdev.trans (complete _ _)
  · exact hdev

theorem setOutcome (o : MountOutcome) (m : MountReader) :
    Aside s { s with dev := { s.dev with outcome := o }, mount := m } := ⟨rfl, rfl, rfl, rfl, rfl, id, fun _ => rfl⟩

theorem mountComplete : Aside s s.mountComplete := by
  have hload (p : Prop) [Decidable p] (c : Option Copy) :
      Aside s (if p then (match c with | some c => s.loadCopy c | none => s) else s) := by
    split
    · split
      · exact ⟨rfl, rfl, rfl, rfl, rfl, id, fun _ => rfl⟩
      · exact refl s
    · exact refl s
  unfold State.mountComplete
  dsimp only
  split
  · exact ((((hload _ _).trans (setOutcome _ _ _)).trans (post _ _)).trans (leaveMounting _ _)).trans
      (of_engines (.requestCommit _))
  · exact (((hload _ _).trans (setOutcome _ _ _)).trans (post _ _)).trans (leaveMounting _ _)

theorem mountResult (r : DecodeResult) : Aside s (s.mountResult r) := by
  unfold State.mountResult
  dsimp only
  split
  · exact (setMount s _).trans (mountComplete _)
  · exact setMount s _

theorem endFormat (f : Filler) : Aside s (s.endFormat f) := by
  obtain ⟨e, i, ev, hend, -⟩ := State.endFormat_frame s f
  rw [hend]
  refine ⟨rfl, rfl, rfl, rfl, rfl, fun _ => ?_, fun _ => rfl⟩
  dsimp only
  split <;> simp

theorem nextCopyStage (f : Filler) : Aside s (s.nextCopyStage f) := by
  unfold State.nextCopyStage
  split
  · exact setFiller s _
  · exact endFormat s _

theorem fillAdvance : Aside s s.fillAdvance := by
  unfold State.fillAdvance
  split
  · split <;> exact setFiller s _
  · exact refl s

theorem fillerWritten : Aside s s.fillerWritten := by
  unfold State.fillerWritten
  split
  · split
    · split <;> exact setFiller s _
    · exact refl s
    · split
      · split <;> exact setFiller s _
      · exact nextCopyStage s _
      · exact refl s
  · exact refl s

theorem fillerReadBack (r : DecodeResult) : Aside s (s.fillerReadBack r) := by
  unfold State.fillerReadBack
  split
  · split
    · split <;> exact setFiller s _
    · split
      · exact setFiller s _
      · exact nextCopyStage s _
  · exact refl s

end Aside

/-! ### What every completion leaves of the host port (R95, R193)

With no cycle held the host port is as it was; nPFAIL's stop of the port is as it was. -/

structure KeepsHost (s t : State) : Prop where
  host : s.host.held = none → t.host = s.host
  stopped : t.port.stopped = s.port.stopped

namespace KeepsHost

theorem refl (s : State) : KeepsHost s s := ⟨fun _ => rfl, rfl⟩

theorem trans {s t u : State} (h : KeepsHost s t) (k : KeepsHost t u) : KeepsHost s u where
  host hheld := (k.host (by rw [h.host hheld, hheld])).trans (h.host hheld)
  stopped := k.stopped.trans h.stopped

theorem of_aside {s t : State} (h : Aside s t) : KeepsHost s t := ⟨h.host, congrArg Port.stopped h.port⟩

theorem of_engines {s t : State} (h : OnlyEngines s t) : KeepsHost s t := of_aside (.of_engines h)

variable (s : State)

theorem noteRead (a : Addr) : KeepsHost s (s.noteRead a) := ⟨fun _ => rfl, rfl⟩
theorem writeCell (a : Addr) (c : Codeword) : KeepsHost s (s.writeCell a c) := ⟨fun _ => rfl, rfl⟩

theorem writeMirror (m : Option Mirror) (c : Codeword) : KeepsHost s (s.writeMirror m c) := by
  cases m
  · exact refl s
  · exact writeCell s _ _

theorem writeBoth (a : Addr) (m : Option Mirror) (c : Codeword) :
    KeepsHost s (((s.writeCell a c).writeMirror m c).mirrorMark m) :=
  ((writeCell s _ _).trans (writeMirror _ _ _)).trans (of_engines (.mirrorMark _ _))

theorem mergeDone (n : Fin 4) (l p : Addr) (mi : Option Mirror) (high : Bool) (v : Half) :
    KeepsHost s (s.mergeDone n l p mi high v) := by
  unfold State.mergeDone
  dsimp only
  refine (noteRead s p).trans ?_
  split
  · exact of_aside (.withReport _ _ fun x => .mergeRefused x _ _ _ _)
  · exact (writeBoth _ _ _ _).trans (of_aside (.withReport _ _ fun x => .entryLeaves x _))

theorem scrubDone (a : Addr) (p r : Bool) : KeepsHost s (s.scrubDone a p r) := by
  have hwrite (x : State) (w : Option Codeword) :
      KeepsHost x (match w with | some c => x.writeCell a c | none => x) := by
    split
    · exact writeCell x _ _
    · exact refl x
  unfold State.scrubDone
  dsimp only
  split
  · exact ((noteRead s a).trans (hwrite _ _)).trans
      ((of_engines (.dropScrubGrant _)).trans (of_engines (.scrubResult _ _ _ _ _)))
  · exact ((noteRead s a).trans (hwrite _ _)).trans (of_engines (.reportOnly _ _))

theorem mountReadDone (a : Addr) : KeepsHost s (s.mountReadDone a) := by
  unfold State.mountReadDone
  dsimp only
  split
  · exact (noteRead s a).trans (of_aside (.withReport _ _ fun x => .mountResult x _))
  · exact (noteRead s a).trans (of_engines (.reportOnly _ _))

theorem completion (g : Grant) : KeepsHost s (s.completion g) := by
  cases g with
  | wordRead n l p => exact (noteRead s p).trans (of_aside (.withReport _ _ fun x => .fetchArrives x _ _))
  | rawRead n a => exact (noteRead s a).trans (of_aside (.fetchArrives _ _ _))
  | wordWrite n p mi c => exact (writeBoth s p mi c).trans (of_aside (.entryLeaves _ n))
  | merge n l p mi h v => exact mergeDone s n l p mi h v
  | rawWrite n a c => exact (writeCell s a c).trans (of_aside (.entryLeaves _ n))
  | copy src dst k =>
    exact ((noteRead s src).trans (writeCell _ _ _)).trans
      (of_aside (.withReport _ _ fun x => .of_engines (.copyResult x _ _ _)))
  | verify a k => exact (noteRead s a).trans (of_engines (.verifyResult _ _ _))
  | scrub a p r => exact scrubDone s a p r
  | mountRead a => exact mountReadDone s a
  | dirWrite a c => exact (writeCell s a c).trans (of_engines (.dirWritten _))
  | dirRead a => exact (noteRead s a).trans (of_engines (.dirReadBack _ _))
  | dirClose a c => exact (writeCell s a c).trans (of_engines (.commitSuccess _))
  | fill a => exact (writeCell s a _).trans (of_aside (.fillAdvance _))
  | fillerWrite a c => exact (writeCell s a c).trans (of_aside (.fillerWritten _))
  | fillerRead a => exact (noteRead s a).trans (of_aside (.fillerReadBack _ _))

end KeepsHost

section
variable {s : State}

/-- The end of a grant leaves the host port alone while nPFAIL has not stopped the port and no cycle is held. -/
theorem State.completeKind_host (hs : s.port.stopped = false) (hheld : s.host.held = none) (k : Grant → Bool) :
    (s.completeKind k).host = s.host := by
  cases hg : s.port.grant with
  | none => rw [State.completeKind_none hg]
  | some g =>
    cases hk : k g with
    | false => simp [State.completeKind, hg, hk]
    | true =>
      obtain ⟨x, hx, heq⟩ := Aside.rangeEvent_from s.clearGrant fun x => (x.completion g).scrubSettle
      have hall : KeepsHost s.clearGrant (x.completion g).scrubSettle :=
        ((KeepsHost.of_aside hx).trans (KeepsHost.completion x g)).trans (KeepsHost.of_engines (.scrubSettle _))
      rw [State.completeKind_of hg hk, State.finish, heq, State.fenceIfDue_running (hall.stopped.trans hs)]
      exact hall.host hheld

theorem State.withSettle_host (hheld : s.host.held = none) {f : State → State} (hf : ∀ x, Aside x (f x)) :
    (s.withSettle f).host = s.host := by
  obtain ⟨x, hx, heq⟩ := Aside.rangeEvent_from s fun x => (f x).scrubSettle
  rw [State.withSettle, heq]
  exact ((hx.trans (hf x)).trans (Aside.of_engines (.scrubSettle _))).host hheld

theorem State.markHeld_host (s : State) (k : GrantClass) : (s.markHeld k).host = s.host := by
  cases k with
  | host =>
    simp only [State.markHeld]
    split <;> rfl
  | _ => rfl

theorem State.decide_host (s : State) : s.decide.host = s.host := by
  unfold State.decide
  split
  · split
    · split
      · exact State.markHeld_host s _
      · rfl
    · rfl
  · rfl

theorem State.enterFenced_host (hp : s.pins.nPfail = false) (hheld : s.host.held = none) :
    s.enterFenced.host = s.host := by
  have hfence : s.enterFenced = s.fence := if_neg (by simp [hp])
  rw [hfence]
  exact (congrArg State.host (State.fence_none hheld)).trans rfl

theorem State.npfailAssert_host (hheld : s.host.held = none) : s.npfailAssert.host = s.host := by
  unfold State.npfailAssert
  dsimp only
  split
  · rfl
  · unfold State.fenceIfDue
    split
    · exact State.enterFenced_host (s := { s.setNPfail false with port := { s.port with stopped := true } }) rfl hheld
    · rfl

theorem State.scrubTimer_host (s : State) : s.scrubTimer.host = s.host := by
  unfold State.scrubTimer
  split
  · exact (OnlyEngines.timerExpires s).host
  · rfl

/-- What may come between the two reads of a paired register. -/
theorem exec_keeps_host (hs : s.port.stopped = false) (hheld : s.host.held = none) {c : Instr}
    (hc : c ∈ [Instr.scrubTimerExpiry, .grantDecision, .fetchComplete, .wordWriteDone, .rawWriteDone, .mergeDone,
      .copyDone, .verifyReadDone, .scrubWordDone, .mountReadDone, .commitWriteDone, .commitReadbackDone,
      .closingWriteDone, .fillDone, .formatCopyGrantDone, .commitStart, .migrationStart, .migrationComplete,
      .npfailAssert]) : ∃ x, exec c s = .next x ∧ x.host = s.host := by
  have due {p : Prop} [Decidable p] {f : State → State} (hf : ∀ x, Aside x (f x)) :
      (if p then s.withSettle f else s).host = s.host := by
    split
    · exact State.withSettle_host hheld hf
    · rfl
  have ends (k : Grant → Bool) : (s.completeKind k).host = s.host := State.completeKind_host hs hheld k
  simp only [List.mem_cons, List.not_mem_nil, or_false] at hc
  rcases hc with rfl | rfl | rfl | rfl | rfl | rfl | rfl | rfl | rfl | rfl | rfl | rfl | rfl | rfl | rfl | rfl | rfl |
    rfl | rfl
  · exact ⟨_, rfl, s.scrubTimer_host⟩
  · exact ⟨_, rfl, s.decide_host⟩
  iterate 13 exact ⟨_, rfl, ends _⟩
  · exact ⟨_, rfl, due fun x => .of_engines (.nextCommit x)⟩
  · exact ⟨_, rfl, due fun x => .of_engines (.tryStart x)⟩
  · exact ⟨_, rfl, due fun x => .of_engines (.completeIncluded x)⟩
  · exact ⟨_, rfl, State.npfailAssert_host hheld⟩

end

/-! ### The two parts of a paired register (R193, R196) -/

theorem extractLsb'_append_low {m n : Nat} (a : BitVec m) (b : BitVec n) : (a ++ b).extractLsb' 0 n = b := by
  refine BitVec.eq_of_getLsbD_eq fun i hi => ?_
  rw [BitVec.getLsbD_extractLsb', BitVec.getLsbD_append]
  simp [hi]

theorem extractLsb'_append_lower {m n k : Nat} (hk : k ≤ n) (a : BitVec m) (b : BitVec n) :
    (a ++ b).extractLsb' 0 k = b.extractLsb' 0 k := by
  refine BitVec.eq_of_getLsbD_eq fun i hi => ?_
  rw [BitVec.getLsbD_extractLsb', BitVec.getLsbD_extractLsb', BitVec.getLsbD_append]
  simp [show i < n by omega]

theorem extractLsb'_append_high {m n : Nat} (a : BitVec m) (b : BitVec n) (k : Nat) :
    (a ++ b).extractLsb' n k = a.extractLsb' 0 k := by
  refine BitVec.eq_of_getLsbD_eq fun i hi => ?_
  rw [BitVec.getLsbD_extractLsb', BitVec.getLsbD_extractLsb', BitVec.getLsbD_append]
  simp

/-- A field below bit 15 of a second part. -/
theorem extractLsb'_part2 {k n : Nat} (hk : k ≤ 15) (hn : n < 2 ^ k) :
    ((0x8000#16 ||| BitVec.ofNat 16 n).extractLsb' 0 k).toNat = n := by
  have h : (0x8000#16 ||| BitVec.ofNat 16 n).extractLsb' 0 k = BitVec.ofNat k n := by
    refine BitVec.eq_of_getLsbD_eq fun i hi => ?_
    have h15 : (0x8000#16).getLsbD i = false := by
      have : i < 15 := by omega
      interval_cases i <;> rfl
    simp only [BitVec.getLsbD_extractLsb', BitVec.getLsbD_or, BitVec.getLsbD_ofNat, Nat.zero_add, h15, Bool.false_or]
    simp [hi, show i < 16 by omega]
  rw [h, BitVec.toNat_ofNat, Nat.mod_eq_of_lt hn]

section
variable {s : State} {r : PairedReg}

theorem State.part1_bit15 (s : State) (r : PairedReg) : (s.part1 r).getLsbD 15 = false := by
  cases r <;> simp only [State.part1, BitVec.getLsbD_append] <;> simp

theorem State.part2_bit15 (s : State) (r : PairedReg) : (s.part2 r).getLsbD 15 = true := by
  cases r <;> simp [State.part2]

/-- R196: the code of the migration phase shown. -/
def migPhaseCode : Option MigPhase → BitVec 2
  | none => 0
  | some .copy => 1
  | some .verify => 2
  | some .commitWait => 3

theorem migCode_some (m : Migration) : migCode (some m) = migPhaseCode (some m.phase) := by
  cases hp : m.phase <;> simp only [migCode, hp] <;> rfl

/-- The host port after the first read. -/
def State.pairedFirst (s : State) (r : PairedReg) : HostPort :=
  { s.host with latch := some { reg := r, part1 := s.part1 r, part2 := s.part2 r }, readData := s.part1 r }

theorem exec_pairedRead_first (hfree : s.busFree) (hl : s.host.latch = none) :
    exec (.pairedRead r) s = .next { s with host := s.pairedFirst r } := by
  obtain ⟨hheld, hin⟩ := hfree
  refine congrArg Host.Outcome.next ?_
  simp [State.readPaired, State.waitPin, hheld, hl, State.readPart1, hin, State.pairedFirst]

/-- The second read shows part 2 of the snapshot, whatever the rest of the state is. -/
theorem exec_pairedRead_second (hheld : s.host.held = none) {x : State} (hx : x.host = s.pairedFirst r) :
    exec (.pairedRead r) x = .next { x with host := { s.host with latch := none, readData := s.part2 r } } := by
  refine congrArg Host.Outcome.next ?_
  have hwait : x.waitPin = false := by simp [State.waitPin, hx, State.pairedFirst, hheld]
  simp [State.readPaired, hwait, hx, State.pairedFirst, State.emptyLatch, State.answer]

end

/-- Settles O46: the two parts come from the snapshot of the first read. -/
theorem pairedReadInTwoParts : Obligations.PairedReadInTwoParts := by
  intro s r hfree hl hspares hlog hcur
  have hheld : s.host.held = none := hfree.1
  let t : State := { s with host := s.pairedFirst r }
  have hsecond (x : State) (hx : x.host = t.host) := exec_pairedRead_second hheld hx
  have hcount (st : SpareState) : s.map.spares.count st < 2 ^ 6 :=
    Nat.lt_of_le_of_lt (List.count_le_length.trans hspares) (by decide)
  have hfield {n : Nat} (hn : n < 2 ^ 6) (b : BitVec 8) :
      (((0#2 ++ BitVec.ofNat 6 n) ++ b).extractLsb' 8 6).toNat = n := by
    rw [extractLsb'_append_high, extractLsb'_append_low, BitVec.toNat_ofNat, Nat.mod_eq_of_lt hn]
  refine ⟨t, { s with host := { s.host with latch := none, readData := s.part2 r } },
    { s with host := { s.host with latch := none, readData := 0x2418 } }, exec_pairedRead_first hfree hl,
    hsecond t rfl, ?_, ?_, s.part1_bit15 r, s.part2_bit15 r, rfl, hsecond, fun hstop c hc => ?_, fun hr => ?_, fun hr => ?_,
    fun hr => ?_, rfl, rfl, rfl⟩
  · exact exec_registerRead_device (s := t) hfree rfl rfl
  · refine (exec_pairedRead_first (s := { s with host := { s.host with latch := none, readData := 0x2418 } }) hfree
      rfl).trans (congrArg Host.Outcome.next ?_)
    cases r <;> rfl
  · obtain ⟨x, hx, hhost⟩ := exec_keeps_host (s := t) hstop hheld hc
    exact ⟨x, hx, hsecond x hhost⟩
  · subst hr
    refine ⟨?_, hfield (Nat.lt_of_le_of_lt hspares (by decide)) _, extractLsb'_part2 (by decide) hlog⟩
    exact (extractLsb'_append_lower (by decide) _ _).trans (extractLsb'_append_low _ _)
  · subst hr
    have hlam : (s.part1 .migrationStatus).extractLsb' 0 12 = s.shownLambda := extractLsb'_append_low _ _
    have hcode : (s.part1 .migrationStatus).extractLsb' 12 2 = migCode s.mig.flight :=
      (extractLsb'_append_high _ _ _).trans (extractLsb'_append_low _ _)
    have hcursor : ((s.part2 .migrationStatus).extractLsb' 0 9).toNat = s.shownCursor :=
      extractLsb'_part2 (by decide) (by omega)
    refine ⟨fun hf => ⟨?_, ?_⟩, fun m hf => ⟨hlam.trans ?_, fun k hk => hcode.trans ?_, hcursor.trans ?_⟩⟩
    · show s.part1 .migrationStatus = 0
      simp [State.part1, migCode, State.shownLambda, hf]
    · refine BitVec.eq_of_toNat_eq (hcursor.trans ?_)
      simp [State.shownCursor, hf]
    · simp [State.shownLambda, hf]
    · rw [hf, migCode_some]
      exact code_of_table (code := migPhaseCode) (num := BitVec.ofNat 2) (by decide) hk
    · simp [State.shownCursor, hf]
  · subst hr
    refine ⟨?_, hfield (hcount _) _, extractLsb'_part2 (by decide) (hcount _)⟩
    refine (congrArg BitVec.toNat ((extractLsb'_append_lower (by decide) _ _).trans (extractLsb'_append_low _ _))).trans ?_
    rw [BitVec.toNat_ofNat, State.countSpares, Nat.mod_eq_of_lt (hcount _)]

/-! ### A grant that completes in a reset event (R88, R99, R100) -/

/-- `t` is `s` at the end of a grant that left the array as `array` and made the accesses `l`; the rest of the port, the
pins, P and the commands that wait are as they were. -/
structure Ends (s t : State) (array : CellArray) (l : List ArrayAccess) : Prop where
  pins : t.pins = s.pins
  pCode : t.pCode = s.pCode
  pending : t.pending = s.pending
  unfenced : s.dev.state ≠ .fenced → t.dev.state ≠ .fenced
  host : s.host.held = none → t.host = s.host
  array : t.array = array
  port : t.port = { s.port with accesses := s.port.accesses ++ l }

namespace Ends
variable {s t u : State} {array : CellArray} {l : List ArrayAccess}

theorem of_read {a : Addr} (h : Aside (s.noteRead a) t) : Ends s t s.array [.read (s.maOf a)] :=
  ⟨h.pins, h.pCode, h.pending, h.unfenced, h.host, h.array, h.port⟩

theorem of_write {a : Addr} {c : Codeword} (h : Aside (s.writeCell a c) t) :
    Ends s t (s.array.put (s.maOf a).toNat c) [.write (s.maOf a) c] :=
  ⟨h.pins, h.pCode, h.pending, h.unfenced, h.host, h.array, h.port⟩

theorem of_writes {a b : Addr} {c : Codeword} (h : Aside ((s.writeCell a c).writeCell b c) t) :
    Ends s t ((s.array.put (s.maOf a).toNat c).put (s.maOf b).toNat c) [.write (s.maOf a) c, .write (s.maOf b) c] := by
  refine ⟨h.pins, h.pCode, h.pending, h.unfenced, h.host, h.array, h.port.trans ?_⟩
  simp only [State.writeCell, List.append_assoc]
  rfl

theorem after (h : Ends s t array l) (k : Aside t u) : Ends s u array l where
  pins := k.pins.trans h.pins
  pCode := k.pCode.trans h.pCode
  pending := k.pending.trans h.pending
  unfenced := k.unfenced ∘ h.unfenced
  host hheld := by
    have hhost := h.host hheld
    exact (k.host (by rw [hhost, hheld])).trans hhost
  array := k.array.trans h.array
  port := k.port.trans h.port

end Ends

/-! #### The grants that only read, and the grants that only write -/

theorem State.completion_reads {g : Grant} {n : Fin 4} {l p : Addr} {k : Nat}
    (h : g ∈ [.wordRead n l p, .rawRead n p, .mountRead p, .verify p k, .dirRead p, .fillerRead p]) (x : State) :
    Aside (x.noteRead p) (x.completion g) := by
  simp only [List.mem_cons, List.not_mem_nil, or_false] at h
  rcases h with rfl | rfl | rfl | rfl | rfl | rfl
  · exact .withReport _ _ fun y => .fetchArrives y _ _
  · exact .fetchArrives _ _ _
  · show Aside _ (x.mountReadDone p)
    unfold State.mountReadDone
    dsimp only
    split
    · exact .withReport _ _ fun y => .mountResult y _
    · exact .of_engines (.reportOnly _ _)
  · exact .of_engines (.verifyResult _ _ _)
  · exact .of_engines (.dirReadBack _ _)
  · exact .fillerReadBack _ _

theorem State.completion_writes {g : Grant} {n : Fin 4} {p : Addr} {c : Codeword}
    (h : g ∈ [.wordWrite n p none c, .rawWrite n p c, .dirWrite p c, .dirClose p c, .fillerWrite p c]) (x : State) :
    Aside (x.writeCell p c) (x.completion g) := by
  simp only [List.mem_cons, List.not_mem_nil, or_false] at h
  rcases h with rfl | rfl | rfl | rfl | rfl
  · exact .entryLeaves _ n
  · exact .entryLeaves _ n
  · exact .of_engines (.dirWritten _)
  · exact .of_engines (.commitSuccess _)
  · exact .fillerWritten _

theorem State.completion_mirrored (x : State) (n : Fin 4) (p : Addr) (mi : Mirror) (c : Codeword) :
    Aside ((x.writeCell p c).writeCell mi.addr c) (x.completion (.wordWrite n p (some mi) c)) :=
  (Aside.of_engines (.mirrorMark _ _)).trans (.entryLeaves _ n)

/-! ### nRESET (R100, R171) -/

/-- The reset condition after nRESET is asserted, with the array and the accesses of the last grant. -/
def State.cleared (s : State) (array : CellArray) (l : List ArrayAccess) (k : Nat) : State :=
  { State.reset with
    port := { Port.reset with accesses := l }
    pins := { s.pins with nReset := false }, pCode := s.pCode, array := array, choices := k
    pending := s.pending, mount := MountReader.idle, dev := Device.reset
    host := { HostPort.reset with readData := match s.host.held with
      | some h => if h.write = none then 0 else s.host.readData
      | none => s.host.readData } }

section
variable {s : State}

theorem State.endHeld_eq (s : State) : ∃ p : HostPort, s.endHeld = { s with host := p } ∧ p.held = none ∧
    p.readData = match s.host.held with
      | some h => if h.write = none then 0 else s.host.readData
      | none => s.host.readData := by
  unfold State.endHeld
  cases hheld : s.host.held with
  | none => exact ⟨s.host, rfl, hheld, rfl⟩
  | some h =>
    cases hw : h.write with
    | none => exact ⟨{ s.host with held := none, readData := 0 }, by simp [hw, State.unhold, State.answer], rfl, by simp [hw]⟩
    | some v => exact ⟨{ s.host with held := none }, by simp [hw, State.unhold], rfl, by simp [hw]⟩

theorem State.nresetAssert_idle (hg : s.port.grant = none) (hd : s.dev.state ≠ .fenced) :
    s.nresetAssert = s.cleared s.array [] s.choices := by
  obtain ⟨p, hp, -, hread⟩ := (s.setNReset false).endHeld_eq
  have hd' : (s.setNReset false).dev.state ≠ .fenced := hd
  have hlast : (s.setNReset false).endHeld.lastGrant = (s.setNReset false).endHeld.clearAccesses := by
    rw [hp, State.lastGrant]
    simp [hg]
  rw [State.nresetAssert, if_neg hd']
  dsimp only
  rw [hlast, hp]
  refine (if_neg hd').trans ?_
  rw [State.cleared, State.resetAll, State.clearAccesses, hread]
  rfl

/-- The grant in progress completes first. -/
theorem State.nresetAssert_granted {g : Grant} {array : CellArray} {l : List ArrayAccess} (hg : s.port.grant = some g)
    (hs : s.port.stopped = false) (hd : s.dev.state ≠ .fenced)
    (h : ∀ x : State, x.array = s.array → x.pCode = s.pCode → Ends x (x.completion g) array l) :
    ∃ k, s.nresetAssert = s.cleared array (s.port.accesses ++ l) k := by
  have hd' : (s.setNReset false).dev.state ≠ .fenced := hd
  obtain ⟨p, hp, hheld, hread⟩ := (s.setNReset false).endHeld_eq
  generalize he : (s.setNReset false).endHeld = e at hp
  obtain ⟨x, hx, hrange⟩ := Aside.rangeEvent_from e.clearGrant fun x => (x.completion g).scrubSettle
  have hends : Ends x (x.completion g).scrubSettle array l :=
    (h x (hx.array.trans (by rw [hp]; rfl)) (hx.pCode.trans (by rw [hp]; rfl))).after (.of_engines (.scrubSettle _))
  generalize ht : (x.completion g).scrubSettle = t at hends
  have hport : t.port = { e.clearGrant.port with accesses := s.port.accesses ++ l } := by
    rw [hends.port, hx.port, hp]
    rfl
  have hlast : e.lastGrant = t := by
    have hgrant : e.port.grant = some g := by rw [hp]; exact hg
    rw [State.lastGrant, hgrant]
    show e.completeGrant = t
    rw [State.completeGrant, hgrant]
    show e.finish _ = t
    rw [State.finish, hrange, ht]
    refine State.fenceIfDue_running ?_
    rw [hport, hp]
    exact hs
  have hhost : t.host = p := by
    have hxhost : x.host = p := (hx.host (by rw [hp]; exact hheld)).trans (by rw [hp]; rfl)
    exact (hends.host (by rw [hxhost, hheld])).trans hxhost
  have hunfenced : t.dev.state ≠ .fenced := hends.unfenced (hx.unfenced (by rw [hp]; exact hd))
  refine ⟨t.choices, ?_⟩
  rw [State.nresetAssert, if_neg hd']
  dsimp only
  rw [he, hlast, if_neg hunfenced, State.resetAll, State.cleared, hends.pins, hends.pCode, hends.array, hends.pending,
    hx.pins, hx.pCode, hx.pending, hport, hhost, hread, hp]
  rfl

end

/-- Settles O6. -/
theorem resetPin : Obligations.ResetPin := by
  refine ⟨fun s hg => ⟨fun hd => congrArg Host.Outcome.next (State.nresetAssert_idle hg hd), fun hd => ?_⟩,
    fun s g hg hs hd => ?_, fun s asz hin hp hd => ?_⟩
  · exact congrArg Host.Outcome.next (if_pos hd)
  · have ends {array : CellArray} {l : List ArrayAccess}
        (h : ∀ x : State, x.array = s.array → x.pCode = s.pCode → Ends x (x.completion g) array l) :
        ∃ k, exec .nresetAssert s = .next (s.cleared array (s.port.accesses ++ l) k) := by
      obtain ⟨k, hk⟩ := State.nresetAssert_granted hg hs hd h
      exact ⟨k, congrArg Host.Outcome.next hk⟩
    have hma {x : State} (hx : x.pCode = s.pCode) (a : Addr) : x.maOf a = s.maOf a := by
      rw [State.maOf, State.maOf, State.physBlocks, State.physBlocks, hx]
    refine ⟨fun n l p k hmem => ends fun x ha hx => ?_, fun n p c hmem => ends fun x ha hx => ?_,
      fun n p mi c hmem => ends fun x ha hx => ?_, fun p hmem => ends fun x ha hx => ?_⟩
    · rw [← ha, ← hma hx]
      exact .of_read (State.completion_reads hmem x)
    · rw [← ha, ← hma hx]
      exact .of_write (State.completion_writes hmem x)
    · rw [← ha, ← hma hx, ← hma hx, hmem]
      exact .of_writes (State.completion_mirrored x n p mi c)
    · rw [← ha, ← hma hx, hmem]
      exact .of_write (.fillAdvance _)
  · refine congrArg Host.Outcome.next ?_
    have hdue : (((s.setNReset true).setAsz asz).dev.inReset && ((s.setNReset true).setAsz asz).pins.nPfail &&
        ((s.setNReset true).setAsz asz).dev.state != .fenced) = true := by
      simp [hin, hp, hd]
    refine (if_pos hdue).trans ?_
    have hpins : ({ nReset := true, nPfail := s.pins.nPfail, asz := asz } : Pins) = ⟨true, true, asz⟩ := by rw [hp]
    rw [State.leaveReset, State.startMount]
    simp [State.setNReset, State.setAsz, hp]

/-! ### A report that asks for nothing (R124 to R127) -/

section
variable {s x : State} {rep : Report}

/-- The fault table once a report is counted, or untracked (R127). -/
def State.reported (s : State) (rep : Report) : FaultTable :=
  (s.countReport rep).getD { s.faults with untracked := satInc s.faults.untracked, full := true }

/-- The event queue `e` with what a report posts: FAULT_TABLE_FULL on entering the untracked condition (R127). -/
def State.reportPosts (s : State) (rep : Report) (e : Events) : Events :=
  match s.countReport rep with
  | some _ => e
  | none => if s.faults.full then e else e.offer
      { kind := .faultTableFull, source := rep.source, phys := some rep.phys
        logical := s.refreshLogical rep.phys none, offset := some rep.offset, detail := satInc s.faults.untracked }

/-- No CORRECTED record is posted of the report, and the test of the record asks for nothing. -/
structure State.Calm (s : State) (rep : Report) : Prop where
  unposted : (s.spareCtrl.reportCorrected && !rep.bad) = false
  untested : s.dev.state = .ready → s.spareCtrl.threshold = 0 ∧ s.spareCtrl.autoUncorrectable = false

theorem State.testRecord_calm (b : Block)
    (h : s.dev.state = .ready → s.spareCtrl.threshold = 0 ∧ s.spareCtrl.autoUncorrectable = false) :
    s.testRecord b = s := by
  by_cases hready : s.dev.state = .ready
  · obtain ⟨hthreshold, hauto⟩ := h hready
    have hmig (r : FaultRecord) : migrationTest s.spareCtrl r = false := by simp [migrationTest, hthreshold, hauto]
    have hspare (r : FaultRecord) : spareTest s.spareCtrl r = false := by simp [spareTest, hthreshold]
    unfold State.testRecord
    simp only [hready, ne_eq, not_true_eq_false, if_false, hmig, hspare, Bool.false_eq_true]
    split
    · rfl
    · split
      · rfl
      · split <;> rfl
  · unfold State.testRecord
    simp only [ne_eq, hready, not_false_eq_true, if_true]
    split <;> rfl

theorem State.takeReport_calm (h : s.Calm rep) : s.takeReport rep = { s with
    faults := s.reported rep, events := s.reportPosts rep s.events } := by
  obtain ⟨hpost, htest⟩ := h
  cases hcount : s.countReport rep with
  | none =>
    simp only [State.takeReport, hcount, State.untrackedReport, State.reported, State.reportPosts, Option.getD_none]
    refine (if_neg ?_).trans ?_
    · cases s.faults.full <;> simpa [State.post] using hpost
    · cases s.faults.full <;> rfl
  | some t =>
    simp only [State.takeReport, hcount, hpost, Bool.false_eq_true, if_false, State.reported, State.reportPosts,
      Option.getD_some]
    exact State.testRecord_calm (s := { s with faults := t }) _ htest

/-- What a report looks at, beside the fault table, is in `x` as in `s`. -/
structure State.SameLook (s x : State) : Prop where
  spareCtrl : x.spareCtrl = s.spareCtrl
  dev : x.dev = s.dev
  logical : ∀ b old, x.refreshLogical b old = s.refreshLogical b old

theorem State.SameLook.takeReport (h : s.SameLook x) (hf : x.faults = s.faults) (hc : s.Calm rep) :
    x.takeReport rep = { x with faults := s.reported rep, events := s.reportPosts rep x.events } := by
  have hcount : x.countReport rep = s.countReport rep := by
    simp only [State.countReport, hf, h.logical]
  have hcalm : x.Calm rep := ⟨by rw [h.spareCtrl]; exact hc.unposted, by rw [h.spareCtrl, h.dev]; exact hc.untested⟩
  rw [State.takeReport_calm hcalm]
  simp only [State.reported, State.reportPosts, hcount, hf, h.logical]

/-- The report falls among its requester's parts `fs`: whatever `P` they keep holds at the end, the fault table is as the
report leaves it, and where they post nothing the event queue is too. -/
theorem insertReport_calm {fs : List (State → State)} {P : State → Prop} {q : Prop} (hc : s.Calm rep)
    (hlook : ∀ x, P x → s.SameLook x) (hreport : ∀ x f e, P x → P { x with faults := f, events := e })
    (hdrawn : ∀ x, P x → P x.drawn)
    (hfs : ∀ f ∈ fs, ∀ x, P x → P (f x) ∧ (f x).faults = x.faults ∧ (q → (f x).events = x.events)) :
    P x → x.faults = s.faults → P (insertReport rep fs x) ∧ (insertReport rep fs x).faults = s.reported rep ∧
      (q → (insertReport rep fs x).events = s.reportPosts rep x.events) := by
  have taken {y : State} (hy : P y) (hf : y.faults = s.faults) : P (y.takeReport rep) ∧
      (y.takeReport rep).faults = s.reported rep ∧ (y.takeReport rep).events = s.reportPosts rep y.events := by
    rw [(hlook y hy).takeReport hf hc]
    exact ⟨hreport y _ _ hy, rfl, rfl⟩
  have rest {l : List (State → State)} (hl : l ⊆ fs) {y : State} (hy : P y) : P (l.foldl (fun x g => g x) y) ∧
      (l.foldl (fun x g => g x) y).faults = y.faults ∧ (q → (l.foldl (fun x g => g x) y).events = y.events) := by
    induction l generalizing y with
    | nil => exact ⟨hy, rfl, fun _ => rfl⟩
    | cons f l ih =>
      obtain ⟨hp, hf, he⟩ := hfs f (hl (List.mem_cons_self ..)) y hy
      obtain ⟨hp', hf', he'⟩ := ih (List.subset_of_cons_subset hl) hp
      exact ⟨hp', hf'.trans hf, fun hq => (he' hq).trans (he hq)⟩
  have go {l : List (State → State)} (hl : l ⊆ fs) : ∀ {y : State}, P y → y.faults = s.faults →
      P (insertReport rep l y) ∧ (insertReport rep l y).faults = s.reported rep ∧
        (q → (insertReport rep l y).events = s.reportPosts rep y.events) := by
    induction l with
    | nil => exact fun hy hf => ⟨(taken hy hf).1, (taken hy hf).2.1, fun _ => (taken hy hf).2.2⟩
    | cons f l ih =>
      intro y hy hf
      rw [insertReport]
      split
      · obtain ⟨hp, hfaults, hevents⟩ := taken (hdrawn y hy) hf
        obtain ⟨hp', hf', he'⟩ := rest hl hp
        exact ⟨hp', hf'.trans hfaults, fun hq => (he' hq).trans hevents⟩
      · obtain ⟨hp, hfaults, hevents⟩ := hfs f (hl (List.mem_cons_self ..)) y.drawn (hdrawn y hy)
        obtain ⟨hp', hf', he'⟩ := ih (List.subset_of_cons_subset hl) hp (hfaults.trans hf)
        exact ⟨hp', hf', fun hq => (he' hq).trans (by rw [hevents hq]; rfl)⟩
  exact go (List.Subset.refl fs)

theorem State.withReport_eq (s : State) (rep : Report) (f : State → State) :
    s.withReport (some rep) f = insertReport rep [f] s := rfl

theorem State.reportOnly_eq (s : State) (rep : Report) : s.reportOnly (some rep) = insertReport rep [] s := rfl

end

/-! ### The slot of a new record (R125, R126) -/

theorem mem_of_lowestCorrected {l : List (Nat × FaultRecord)} {y : Nat × FaultRecord} (h : lowestCorrected l = some y) :
    y ∈ l := by
  induction l with
  | nil => simp [lowestCorrected] at h
  | cons x l ih =>
    rw [lowestCorrected] at h
    cases hl : lowestCorrected l with
    | none => simp_all
    | some z =>
      rw [hl] at h ih
      dsimp only at h
      split at h
      · exact List.mem_cons_of_mem _ (ih h)
      · cases h
        exact List.mem_cons_self ..

/-- The first of the lowest: above it all are higher, after it none is lower. -/
theorem lowestCorrected_append {l r : List (Nat × FaultRecord)} {x : Nat × FaultRecord}
    (hl : ∀ y ∈ l, x.2.corrected < y.2.corrected) (hr : ∀ y ∈ r, x.2.corrected ≤ y.2.corrected) :
    lowestCorrected (l ++ x :: r) = some x := by
  induction l with
  | nil =>
    rw [List.nil_append, lowestCorrected]
    cases h : lowestCorrected r with
    | none => rfl
    | some y => exact if_neg (BitVec.not_lt.mpr (hr y (mem_of_lowestCorrected h)))
  | cons z l ih =>
    rw [List.cons_append, lowestCorrected, ih fun y hy => hl y (List.mem_cons_of_mem _ hy)]
    exact if_pos (hl z (List.mem_cons_self ..))

section
variable {t : FaultTable} {b : Block} {k : Nat} {v : FaultRecord}

/-- The slot and the record of a block, as the update order lists them. -/
def FaultTable.aged (t : FaultTable) (b : Block) : Option (Nat × FaultRecord) :=
  match t.slotOf b, t.recordOf b with
  | some i, some r => some (i, r)
  | _, _ => none

theorem FaultTable.byAge_eq (t : FaultTable) : t.byAge = t.order.filterMap t.aged := rfl

theorem FaultTable.aged_eq_some_iff {x : Nat × FaultRecord} :
    t.aged b = some x ↔ t.slotOf b = some x.1 ∧ t.recordOf b = some x.2 := by
  unfold FaultTable.aged
  cases t.slotOf b <;> cases t.recordOf b <;> simp [Prod.ext_iff]

theorem FaultTable.slotOf_of_unique (hv : t.slots.toList[k]? = some (some v))
    (huniq : ∀ (j : Nat) r, t.slots.toList[j]? = some (some r) → r.phys = v.phys → j = k) : t.slotOf v.phys = some k := by
  cases hslot : t.slotOf v.phys with
  | none => exact absurd rfl (FaultTable.slotOf_eq_none_iff.mp hslot k v hv)
  | some i =>
    obtain ⟨r, hr, hphys⟩ := FaultTable.slotOf_phys hslot
    rw [huniq i r hr hphys]

theorem FaultTable.aged_of_unique (hv : t.slots.toList[k]? = some (some v))
    (huniq : ∀ (j : Nat) r, t.slots.toList[j]? = some (some r) → r.phys = v.phys → j = k) : t.aged v.phys = some (k, v) :=
  have hslot := FaultTable.slotOf_of_unique hv huniq
  FaultTable.aged_eq_some_iff.mpr ⟨hslot, FaultTable.recordOf_eq_some_iff.mpr ⟨k, hslot, hv⟩⟩

/-- The records of blocks of which none has a record in state `st`. -/
theorem FaultTable.aged_find_none {l : List Block} {p : Nat × FaultRecord → Bool}
    (h : ∀ x ∈ l, ∀ r, t.recordOf x = some r → ∀ i, p (i, r) = false) : (l.filterMap t.aged).find? p = none := by
  rw [List.find?_eq_none]
  intro x hx
  obtain ⟨b, hb, haged⟩ := List.mem_filterMap.mp hx
  simp [h b hb x.2 (FaultTable.aged_eq_some_iff.mp haged).2 x.1]

/-- R126: the record in slot k is the one to evict. -/
structure FaultTable.Evicts (t : FaultTable) (k : Nat) (v : FaultRecord) (pre post : List Block) : Prop where
  aged : t.aged v.phys = some (k, v)
  order : t.order = pre ++ v.phys :: post
  chosen :
    v.state = .retired ∧ (∀ x ∈ pre, ∀ r, t.recordOf x = some r → r.state ≠ .retired) ∨
    v.state = .unspareable ∧ (∀ x ∈ t.order, ∀ r, t.recordOf x = some r → r.state ≠ .retired) ∧
      (∀ x ∈ pre, ∀ r, t.recordOf x = some r → r.state ≠ .unspareable) ∨
    v.state = .observed ∧ v.uncorrectable = 0 ∧
      (∀ x ∈ t.order, ∀ r, t.recordOf x = some r → r.state ≠ .retired ∧ r.state ≠ .unspareable) ∧
      (∀ x ∈ pre, ∀ r, t.recordOf x = some r → r.state = .observed → r.uncorrectable = 0 → v.corrected < r.corrected) ∧
      (∀ x ∈ post, ∀ r, t.recordOf x = some r → r.state = .observed → r.uncorrectable = 0 → v.corrected ≤ r.corrected)

theorem FaultTable.Evicts.evictee {pre post : List Block} (h : t.Evicts k v pre post) : t.evictee = some (k, v) := by
  obtain ⟨haged, horder, hchosen⟩ := h
  have hbyAge : t.byAge = pre.filterMap t.aged ++ (k, v) :: post.filterMap t.aged := by
    rw [FaultTable.byAge_eq, horder, List.filterMap_append, List.filterMap_cons, haged]
  have first {p : Nat × FaultRecord → Bool} (hp : p (k, v) = true)
      (hpre : ∀ x ∈ pre, ∀ r, t.recordOf x = some r → ∀ i, p (i, r) = false) : t.byAge.find? p = some (k, v) := by
    rw [hbyAge, List.find?_append, FaultTable.aged_find_none hpre, List.find?_cons, hp]
    rfl
  have never {p : Nat × FaultRecord → Bool}
      (h : ∀ x ∈ t.order, ∀ r, t.recordOf x = some r → ∀ i, p (i, r) = false) : t.byAge.find? p = none := by
    rw [FaultTable.byAge_eq]
    exact FaultTable.aged_find_none h
  rcases hchosen with ⟨hv, hpre⟩ | ⟨hv, hall, hpre⟩ | ⟨hv, hunc, hall, hpre, hpost⟩
  · rw [FaultTable.evictee, first (by simp [hv]) fun x hx r hr _ => by simpa using hpre x hx r hr]
  · rw [FaultTable.evictee, never fun x hx r hr _ => by simpa using hall x hx r hr,
      first (by simp [hv]) fun x hx r hr _ => by simpa using hpre x hx r hr]
  · rw [FaultTable.evictee, never fun x hx r hr _ => by simpa using (hall x hx r hr).1,
      never fun x hx r hr _ => by simpa using (hall x hx r hr).2]
    dsimp only
    rw [hbyAge, List.filter_append, List.filter_cons_of_pos (by simp [hv, hunc])]
    refine lowestCorrected_append (fun y hy => ?_) fun y hy => ?_
    all_goals
      obtain ⟨hmem, hp⟩ := List.mem_filter.mp hy
      obtain ⟨b, hb, haged⟩ := List.mem_filterMap.mp hmem
      simp only [Bool.and_eq_true, beq_iff_eq] at hp
    · exact hpre b hb _ (FaultTable.aged_eq_some_iff.mp haged).2 hp.1 hp.2
    · exact hpost b hb _ (FaultTable.aged_eq_some_iff.mp haged).2 hp.1 hp.2

/-- R127: QUEUED and MIGRATING records, and OBSERVED ones with an uncorrectable count, are not evicted. -/
theorem FaultTable.evictee_none (h : ∀ x ∈ t.slots.toList, ∃ r, x = some r ∧
    (r.state = .queued ∨ r.state = .migrating ∨ r.state = .observed ∧ r.uncorrectable ≠ 0)) : t.evictee = none := by
  have held {x : Block} {r : FaultRecord} (hr : t.recordOf x = some r) :
      r.state = .queued ∨ r.state = .migrating ∨ r.state = .observed ∧ r.uncorrectable ≠ 0 := by
    obtain ⟨i, -, hi⟩ := FaultTable.recordOf_eq_some_iff.mp hr
    obtain ⟨_, heq, hr'⟩ := h _ (List.mem_of_getElem? hi)
    cases heq
    exact hr'
  have never {p : Nat × FaultRecord → Bool} (hp : ∀ i r, (r.state = .queued ∨ r.state = .migrating ∨
      r.state = .observed ∧ r.uncorrectable ≠ 0) → p (i, r) = false) : t.byAge.find? p = none := by
    rw [FaultTable.byAge_eq]
    exact FaultTable.aged_find_none fun x _ r hr i => hp i r (held hr)
  rw [FaultTable.evictee, never fun i r hr => by rcases hr with h | h | h <;> simp [h],
    never fun i r hr => by rcases hr with h | h | h <;> simp [h]]
  dsimp only
  rw [List.filter_eq_nil_iff.mpr]
  · rfl
  · intro y hy
    have hnone := List.find?_eq_none.mp (never (p := fun x => x.2.state == .observed && x.2.uncorrectable == 0)
      fun i r hr => by
        rcases hr with h | h | ⟨-, h⟩
        · simp [h]
        · simp [h]
        · simpa using fun _ => h)
    exact hnone y hy

/-! #### A record is inserted -/

theorem FaultTable.insert_empty (hk : t.slots.toList[k]? = some none)
    (hfirst : ∀ j, j < k → t.slots.toList[j]? ≠ some none) (r : FaultRecord) :
    t.insert r = some { (t.setSlot k (some r)).touch r.phys with full := false } := by
  have hfind : t.slots.toList.findIdx? Option.isNone = some k := by
    obtain ⟨hlt, hget⟩ := List.getElem?_eq_some_iff.mp hk
    refine List.findIdx?_eq_some_iff_getElem.mpr ⟨hlt, by simp [hget], fun j hj => ?_⟩
    intro hnone
    exact hfirst j hj (List.getElem?_eq_some_iff.mpr ⟨by omega, Option.isNone_iff_eq_none.mp hnone⟩)
  simp only [FaultTable.insert, FaultTable.room, hfind]

theorem FaultTable.no_empty_slot (h : ∀ x ∈ t.slots.toList, x.isSome = true) :
    t.slots.toList.findIdx? Option.isNone = none := List.findIdx?_eq_none_iff.mpr fun x hx => by simp [h x hx]

/-- The table without the record of slot k. -/
def FaultTable.evicted (t : FaultTable) (k : Nat) (v : FaultRecord) : FaultTable :=
  { t.setSlot k none with order := t.order.filter fun x => x != v.phys }

theorem FaultTable.insert_evicting (h : ∀ x ∈ t.slots.toList, x.isSome = true) (he : t.evictee = some (k, v))
    (r : FaultRecord) : t.insert r = some { ((t.evicted k v).setSlot k (some r)).touch r.phys with full := false } := by
  simp only [FaultTable.insert, FaultTable.room, FaultTable.no_empty_slot h, he]
  rfl

theorem FaultTable.evicted_refilled (t : FaultTable) (k : Nat) (v r : FaultRecord) :
    ((t.evicted k v).setSlot k (some r)).slots.toList = t.slots.toList.set k (some r) := by
  simp [FaultTable.evicted, FaultTable.setSlot]

theorem FaultTable.evicted_touched (t : FaultTable) (k : Nat) (v : FaultRecord) (b : Block) :
    ((t.evicted k v).touch b).order = (t.order.filter fun x => x != v.phys && x != b) ++ [b] := by
  simp only [FaultTable.touch, FaultTable.evicted, List.filter_filter]
  congr 2
  funext x
  exact Bool.and_comm _ _

theorem FaultTable.insert_none (h : ∀ x ∈ t.slots.toList, x.isSome = true) (he : t.evictee = none) (r : FaultRecord) :
    t.insert r = none := by
  simp only [FaultTable.insert, FaultTable.room, FaultTable.no_empty_slot h, he]

end

/-! ### The requesters of a report (R36, R63, R113) -/

/-- `t` differs from `s` in the fault table, the channels' part of an event and the count of free orders alone. -/
def OnlyReport (s t : State) : Prop :=
  t = { s with
    faults := t.faults, chans := t.chans, nextPos := t.nextPos, events := t.events, host := t.host, diag := t.diag
    choices := t.choices }

namespace OnlyReport

theorem refl (s : State) : OnlyReport s s := rfl

theorem trans {s t u : State} (h : OnlyReport s t) (k : OnlyReport t u) : OnlyReport s u := by
  unfold OnlyReport at h k ⊢
  rw [k, h]

variable {s t : State}

theorem of_channels (h : OnlyChannels s t) : OnlyReport s t := by
  unfold OnlyReport
  rw [h]

variable (h : OnlyReport s t)
include h

theorem sameLook : s.SameLook t := by
  rw [h]
  exact ⟨rfl, rfl, fun _ _ => rfl⟩

theorem map : t.map = s.map := (congrArg State.map h).trans rfl
theorem dir : t.dir = s.dir := (congrArg State.dir h).trans rfl
theorem mig : t.mig = s.mig := (congrArg State.mig h).trans rfl
theorem port : t.port = s.port := (congrArg State.port h).trans rfl
theorem pCode : t.pCode = s.pCode := (congrArg State.pCode h).trans rfl
theorem array : t.array = s.array := (congrArg State.array h).trans rfl
theorem scrub : t.scrub = s.scrub := (congrArg State.scrub h).trans rfl

end OnlyReport

section
variable {s : State} {rep : Report} {a : Addr}

/-! #### The mount reader -/

theorem State.mountResult_early (h : s.mount.word.toNat ≠ 511) (r : DecodeResult) :
    ∃ m, s.mountResult r = { s with mount := m } := by
  have hlast : s.mount.word ≠ BitVec.allOnes 9 := fun hw => h (by rw [hw]; rfl)
  exact ⟨_, if_neg hlast⟩

theorem State.mountReadDone_calm (hc : s.Calm rep) (hrep : reportOf a .mount (decodeWord (s.cell a)) = some rep)
    (hw : s.mount.word.toNat ≠ 511) : ∃ m k, s.mountReadDone a = { s.noteRead a with
      mount := m, choices := k, faults := s.reported rep, events := s.reportPosts rep s.events } := by
  have taken (m : MountReader) (k : Nat) :=
    State.takeReport_calm (s := { s.noteRead a with mount := m, choices := k }) (rep := rep) ⟨hc.unposted, hc.untested⟩
  rw [State.mountReadDone, hrep]
  split
  · rcases State.eitherWay_orders (s.noteRead a) (fun x => x.takeReport rep)
      (fun x => x.mountResult (decodeWord (s.cell a))) with horder | horder
    · obtain ⟨m, hm⟩ := State.mountResult_early
        (s := ({ (s.noteRead a).drawn with faults := s.reported rep, events := s.reportPosts rep s.events } : State))
        hw (decodeWord (s.cell a))
      refine ⟨m, s.choices + 1, horder.trans ?_⟩
      dsimp only
      exact (congrArg (State.mountResult · _) (taken s.mount (s.choices + 1))).trans hm
    · obtain ⟨m, hm⟩ := State.mountResult_early (s := (s.noteRead a).drawn) hw (decodeWord (s.cell a))
      refine ⟨m, s.choices + 1, horder.trans ?_⟩
      dsimp only
      rw [hm]
      exact taken m (s.choices + 1)
  · exact ⟨s.mount, s.choices, taken s.mount s.choices⟩

/-! #### A fetch -/

/-- No held cycle and no fault mark that an arriving word could bring to light. -/
def State.Unmarked (s : State) (n : Fin 4) : Prop := s.host.held = none ∧ ∀ x ∈ (s.chan n).readAhead, x.mark = none

theorem State.fetchArrives_silent {n : Fin 4} {e : ReadEntry} (h : s.Unmarked n) (he : e.mark = none) :
    (s.fetchArrives n e).Unmarked n ∧ (s.fetchArrives n e).events = s.events := by
  obtain ⟨hheld, hra⟩ := h
  by_cases hw : (s.chan n).wantsFetch = true
  · rw [State.fetchArrives_unmarked hw hheld hra he]
    refine ⟨⟨hheld, ?_⟩, rfl⟩
    simp only [State.setChan_chan_self, Channel.fetched, List.mem_append, List.mem_singleton]
    rintro x (hx | rfl)
    · exact hra x hx
    · exact he
  · have hdrop : s.fetchArrives n e = s.dropGrant n := if_neg hw
    rw [hdrop, State.dropGrant]
    exact ⟨⟨hheld, by simpa using hra⟩, rfl⟩

/-- What a fetch brings its channel. -/
def State.fetchedFrom (s : State) (l a : Addr) : ReadEntry :=
  { addr := l, data := (decodeWord (s.cell a)).data, side := none
    mark := markOf (decodeWord (s.cell a)), phys := some (blockOf a) }

theorem State.fetchDone_calm {n : Fin 4} {l : Addr} (hc : s.Calm rep)
    (hrep : reportOf a (hostSource n) (decodeWord (s.cell a)) = some rep) :
    OnlyReport (s.noteRead a) (s.fetchDone n l a) ∧ (s.fetchDone n l a).faults = s.reported rep ∧
      (rep.bad = false ∧ s.Unmarked n → (s.fetchDone n l a).events = s.reportPosts rep s.events) := by
  have hmark : rep.bad = false → markOf (decodeWord (s.cell a)) = none := by
    unfold reportOf at hrep
    unfold markOf
    split at hrep <;> cases hrep <;> simp_all
  have hdone := insertReport_calm (s := s.noteRead a) (x := s.noteRead a) (rep := rep)
    (fs := [fun x => x.fetchArrives n (s.fetchedFrom l a)])
    (P := fun x => OnlyReport (s.noteRead a) x ∧ (rep.bad = false ∧ s.Unmarked n → x.Unmarked n))
    (q := rep.bad = false ∧ s.Unmarked n) ⟨hc.unposted, hc.untested⟩ (fun x hx => hx.1.sameLook)
    (fun x f e hx => ⟨hx.1.trans rfl, hx.2⟩) (fun x hx => ⟨hx.1.trans rfl, hx.2⟩) ?_ ⟨rfl, fun h => h.2⟩ rfl
  · rw [State.fetchDone, hrep, State.withReport_eq]
    exact ⟨hdone.1.1, hdone.2⟩
  · simp only [List.mem_singleton, forall_eq]
    intro x hx
    have harrives := OnlyChannels.fetchArrives x n (s.fetchedFrom l a)
    exact ⟨⟨hx.1.trans (.of_channels harrives), fun hq => (State.fetchArrives_silent (hx.2 hq) (hmark hq.1)).1⟩,
      harrives.faults, fun hq => (State.fetchArrives_silent (hx.2 hq) (hmark hq.1)).2⟩

/-! #### The scrub engine -/

theorem State.requestCommit_below (h : s.dir.gen ≠ 0xFFFFFFFF) :
    ∃ d, s.requestCommit = { s with dir := d } ∧ d.gen = s.dir.gen := by
  by_cases hi : s.dir.state = .idle
  · cases hro : s.dev.dirReadonly with
    | true => exact ⟨s.dir, State.requestCommit_readonly hi hro, rfl⟩
    | false =>
      rw [State.requestCommit_idle hi hro, State.startCommit_started h]
      exact ⟨_, rfl, State.startedDir_gen s⟩
  · exact ⟨_, State.requestCommit_busy hi, rfl⟩

theorem State.dirFinding_below (h : s.dir.gen ≠ 0xFFFFFFFF) (c : Copy) :
    ∃ d, s.dirFinding c = { s with dir := d } ∧ d.gen = s.dir.gen := by
  unfold State.dirFinding
  dsimp only
  split
  · have hgen : (s.dir.markInvalid c).gen = s.dir.gen := s.dir.markInvalid_gen c
    split
    · exact ⟨_, rfl, hgen⟩
    · obtain ⟨d, hd, hg⟩ := State.requestCommit_below (s := { s with dir := s.dir.markInvalid c }) (by rw [hgen]; exact h)
      exact ⟨d, hd, hg.trans hgen⟩
  · exact ⟨s.dir, rfl, rfl⟩

theorem State.roleOf_spare_iff {b : Block} {k : Nat} {st : SpareState} : s.roleOf b = .spare k st ↔
    b.toNat ≠ s.physBlocks - 1 ∧ b.toNat ≠ s.physBlocks - 2 ∧ s.map.loaded = true ∧ s.logicalBlocks ≤ b.toNat ∧
      k = b.toNat - s.logicalBlocks ∧ s.map.spares[k]? = some st := by
  unfold State.roleOf
  split
  · simp_all
  split
  · simp_all
  split
  · simp_all
  split
  · split <;> simp <;> omega
  · split
    · rename_i old hget
      simp_all only [ne_eq, not_false_eq_true, Nat.not_lt, true_and, Role.spare.injEq, Bool.not_eq_true',
        Bool.not_eq_false]
      constructor
      · rintro ⟨rfl, rfl⟩
        exact ⟨rfl, hget⟩
      · rintro ⟨rfl, hk⟩
        exact ⟨rfl, Option.some.inj (hget.symm.trans hk)⟩
    · simp_all

/-- A condemned spare, as a FREE one, serves no block. -/
theorem State.condemned_logical {t : State} {k : Nat} (hk : s.map.spares[k]? = some .free)
    (hmap : t.map = { s.map with spares := s.map.spares.set k .condemned }) (hp : t.pCode = s.pCode) (b : Block)
    (old : Option Block) : t.refreshLogical b old = s.refreshLogical b old := by
  have hremap : t.map.remap = s.map.remap := by rw [hmap]
  have hphys : t.physBlocks = s.physBlocks := by rw [State.physBlocks, State.physBlocks, hp]
  have hlogical : t.logicalBlocks = s.logicalBlocks := by
    simp only [State.logicalBlocks, State.spareCount, hphys, hmap, List.length_set]
  rcases State.roleOf_setSpare hmap hp b with hrole | hrole
  · simp only [State.refreshLogical, State.servedBy, hrole, hremap]
  · obtain ⟨hb, ha, hl, hge, hkb, -⟩ := State.roleOf_spare_iff.mp hrole
    have hfree : s.roleOf b = .spare k .free := State.roleOf_spare_iff.mpr
      ⟨by rwa [← hphys], by rwa [← hphys], by simpa [hmap] using hl, by rwa [← hlogical], by rwa [← hlogical], hk⟩
    simp only [State.refreshLogical, State.servedBy, hrole, hfree]

theorem State.condemn_below {k : Nat} {src : Source} (h : s.dir.gen ≠ 0xFFFFFFFF) :
    ∃ m d e, s.condemn k .free src = { s with map := m, dir := d, events := e } ∧ d.gen = s.dir.gen ∧
      s.SameLook { s with map := m, dir := d, events := e } := by
  unfold State.condemn
  split
  · rename_i hk
    obtain ⟨d, hd, hg⟩ := State.requestCommit_below (s := s.markCondemned k src) h
    exact ⟨_, d, _, hd, hg, rfl, rfl, State.condemned_logical hk rfl rfl⟩
  · exact ⟨s.map, s.dir, s.events, rfl, rfl, rfl, rfl, fun _ _ => rfl⟩

theorem State.scrubHandOff_below (h : s.dir.gen ≠ 0xFFFFFFFF) (a : Addr) (r : DecodeResult) :
    ∃ m d e, s.scrubHandOff a r = { s with map := m, dir := d, events := e } ∧ d.gen = s.dir.gen ∧
      s.SameLook { s with map := m, dir := d, events := e } ∧ (r.cls = .corrected → e = s.events) := by
  have found (c : Copy) : ∃ m d e, s.dirFinding c = { s with map := m, dir := d, events := e } ∧ d.gen = s.dir.gen ∧
      s.SameLook { s with map := m, dir := d, events := e } ∧ (r.cls = .corrected → e = s.events) := by
    obtain ⟨d, hd, hg⟩ := State.dirFinding_below h c
    exact ⟨s.map, d, s.events, hd, hg, ⟨rfl, rfl, fun _ _ => rfl⟩, fun _ => rfl⟩
  have none : ∃ m d e, s = { s with map := m, dir := d, events := e } ∧ d.gen = s.dir.gen ∧
      s.SameLook { s with map := m, dir := d, events := e } ∧ (r.cls = .corrected → e = s.events) :=
    ⟨s.map, s.dir, s.events, rfl, rfl, ⟨rfl, rfl, fun _ _ => rfl⟩, fun _ => rfl⟩
  unfold State.scrubHandOff
  split
  · exact none
  split
  · rename_i hcls
    obtain ⟨m, d, e, hcond, hg, hlook⟩ := State.condemn_below (s := s) h
    exact ⟨m, d, e, hcond, hg, hlook, fun hc => by simp [hcls] at hc⟩
  · exact found _
  · exact found _
  · exact none

theorem State.scrubCount_frame (a : Addr) (r : DecodeResult) (w : Bool) : ∃ c e,
    s.scrubCount a r w = { s with scrub := c, events := e } ∧ c.range = s.scrub.range ∧
      c.passEvent = s.scrub.passEvent ∧ (r.cls = .corrected → e = s.events) := by
  unfold State.scrubCount
  split
  · exact ⟨_, s.events, rfl, rfl, rfl, fun _ => rfl⟩
  · rename_i hcls
    exact ⟨s.scrub, _, rfl, rfl, rfl, fun hc => by simp [hcls] at hc⟩
  · exact ⟨s.scrub, s.events, rfl, rfl, rfl, fun _ => rfl⟩

theorem State.completeSlice_range (s : State) : s.completeSlice.scrub.range = s.scrub.range := by
  unfold State.completeSlice
  dsimp only
  split
  · split <;> rfl
  · rfl

theorem State.scrubProgress_frame (hpass : s.scrub.passEvent = false) (a : Addr) : ∃ c,
    s.scrubProgress a false = { s with scrub := c } ∧ c.range = s.scrub.range ∧ c.passEvent = false := by
  have hnormal : s.scrubProgress a false = if s.scrub.word = 15 then s.completeSlice
      else { s with scrub := { s.scrub with word := s.scrub.word + 1 } } := rfl
  rw [hnormal]
  split
  · obtain ⟨c, hc, hp⟩ := State.completeSlice_scrub hpass
    refine ⟨c, hc, ?_, hp⟩
    rw [← State.completeSlice_range s, hc]
  · exact ⟨_, rfl, rfl, hpass⟩

/-- What stays while the scrub engine takes a result outside a range run, below the generation limit. -/
structure State.ScrubKeeps (s x : State) : Prop where
  look : s.SameLook x
  mig : x.mig = s.mig
  port : x.port = s.port
  range : x.scrub.range = s.scrub.range
  passEvent : x.scrub.passEvent = false
  gen : x.dir.gen ≠ 0xFFFFFFFF

theorem State.SameLook.trans {x y : State} (h : s.SameLook x) (k : x.SameLook y) : s.SameLook y :=
  ⟨k.spareCtrl.trans h.spareCtrl, k.dev.trans h.dev, fun b old => (k.logical b old).trans (h.logical b old)⟩

theorem State.scrubResult_calm {r : DecodeResult} {w : Bool} (hc : s.Calm rep) (hrep : reportOf a .scrub r = some rep)
    (hpass : s.scrub.passEvent = false) (hgen : s.dir.gen ≠ 0xFFFFFFFF) :
    s.ScrubKeeps (s.scrubResult a false w r) ∧ (s.scrubResult a false w r).faults = s.reported rep ∧
      (rep.bad = false → (s.scrubResult a false w r).events = s.reportPosts rep s.events) := by
  have hcls : rep.bad = false → r.cls = .corrected := by
    unfold reportOf at hrep
    split at hrep <;> cases hrep <;> simp_all
  rw [State.scrubResult, hrep]
  refine insertReport_calm (P := s.ScrubKeeps) hc (fun x hx => hx.look)
    (fun x f e hx => ⟨hx.look.trans ⟨rfl, rfl, fun _ _ => rfl⟩, hx.mig, hx.port, hx.range, hx.passEvent, hx.gen⟩)
    (fun x hx => ⟨hx.look.trans ⟨rfl, rfl, fun _ _ => rfl⟩, hx.mig, hx.port, hx.range, hx.passEvent, hx.gen⟩) ?_
    ⟨⟨rfl, rfl, fun _ _ => rfl⟩, rfl, rfl, rfl, hpass, hgen⟩ rfl
  intro f hf x hx
  simp only [List.mem_cons, List.not_mem_nil, or_false] at hf
  rcases hf with rfl | rfl | rfl
  · obtain ⟨c, e, heq, hrange, hp, he⟩ := x.scrubCount_frame a r w
    dsimp only
    rw [heq]
    exact ⟨⟨hx.look.trans ⟨rfl, rfl, fun _ _ => rfl⟩, hx.mig, hx.port, hrange.trans hx.range,
      hp.trans hx.passEvent, hx.gen⟩, rfl, fun hb => he (hcls hb)⟩
  · obtain ⟨m, d, e, heq, hg, hlook, he⟩ := State.scrubHandOff_below hx.gen a r
    dsimp only
    rw [heq]
    exact ⟨⟨hx.look.trans hlook, hx.mig, hx.port, hx.range, hx.passEvent, hg ▸ hx.gen⟩, rfl, fun hb => he (hcls hb)⟩
  · obtain ⟨c, heq, hrange, hp⟩ := State.scrubProgress_frame hx.passEvent a
    dsimp only
    rw [heq]
    exact ⟨⟨hx.look.trans ⟨rfl, rfl, fun _ _ => rfl⟩, hx.mig, hx.port, hrange.trans hx.range, hp, hx.gen⟩, rfl,
      fun _ => rfl⟩

/-- The array and the lines as a scrub visit leaves them (R112). -/
def State.scrubWritten (s : State) (a : Addr) (p : Bool) : State :=
  match scrubWriteback p (decodeWord (s.cell a)) with
  | some c => (s.noteRead a).writeCell a c
  | none => s.noteRead a

theorem State.scrubWritten_frame (s : State) (a : Addr) (p : Bool) : s.scrubWritten a p = { s with
    array := (s.scrubWritten a p).array
    port := { s.port with accesses := (s.scrubWritten a p).port.accesses } } := by
  unfold State.scrubWritten
  split <;> rfl

theorem State.scrubDone_eq (s : State) (a : Addr) (p range : Bool) : s.scrubDone a p range =
    if s.scrub.holds then (s.scrubWritten a p).dropScrubGrant.scrubResult a range
      (scrubWriteback p (decodeWord (s.cell a))).isSome (decodeWord (s.cell a))
    else (s.scrubWritten a p).reportOnly (reportOf a .scrub (decodeWord (s.cell a))) := rfl

theorem State.scrubDone_calm {p : Bool} (hc : s.Calm rep) (hrep : reportOf a .scrub (decodeWord (s.cell a)) = some rep)
    (hpass : s.scrub.passEvent = false) (hgen : s.dir.gen ≠ 0xFFFFFFFF) :
    ∃ t, s.scrubDone a p false = t ∧ t.mig = s.mig ∧ t.port.stopped = s.port.stopped ∧
      t.scrub.range = s.scrub.range ∧ t.scrub.passEvent = false ∧ t.faults = s.reported rep ∧
      (rep.bad = false → t.events = s.reportPosts rep s.events) := by
  have hframe := s.scrubWritten_frame a p
  generalize (s.scrubWritten a p).array = array, (s.scrubWritten a p).port.accesses = l at hframe
  rw [State.scrubDone_eq, hframe]
  split
  · obtain ⟨hkeeps, hfaults, hevents⟩ := State.scrubResult_calm
      (s := ({ s with array := array, port := { s.port with accesses := l } } : State).dropScrubGrant)
      (w := (scrubWriteback p (decodeWord (s.cell a))).isSome) ⟨hc.unposted, hc.untested⟩ hrep hpass hgen
    exact ⟨_, rfl, hkeeps.mig, (congrArg Port.stopped hkeeps.port).trans rfl, hkeeps.range, hkeeps.passEvent, hfaults,
      hevents⟩
  · have htake := State.takeReport_calm (s := { s with array := array, port := { s.port with accesses := l } })
      (rep := rep) ⟨hc.unposted, hc.untested⟩
    rw [hrep]
    refine ⟨_, htake, rfl, rfl, rfl, hpass, rfl, fun _ => rfl⟩

end

/-! ### A report at the end of its grant -/

section
variable {s : State} {a : Addr} {src : Source} {bad : Bool}

/-- The report of a word of address `a`. -/
def reportAt (a : Addr) (src : Source) (bad : Bool) : Report :=
  { phys := blockOf a, offset := offsetOf a, bad := bad, source := src }

theorem reportOf_bad {c : Codeword} {d : Word} {i : Nat}
    (h : if bad then (decodeWord c).cls = .uncorrectable else i < 40 ∧ c = flipBit (freshWord d) i) :
    reportOf a src (decodeWord c) = some (reportAt a src bad) := by
  cases bad with
  | true => exact reportOf_uncorrectable h
  | false => exact reportOf_corrected (congrArg DecodeResult.cls (decodeWord_oneFlip (c := c) (d := d) h.1 h.2))

theorem State.countedRecord_eq (s : State) (r : FaultRecord) : s.countedRecord (reportAt a src bad) r = { r with
    logical := s.refreshLogical (blockOf a) r.logical, lastOffset := offsetOf a, lastSource := src
    corrected := if bad ∨ r.corrected = 255 then r.corrected else r.corrected + 1
    uncorrectable := if bad ∧ r.uncorrectable ≠ 15 then r.uncorrectable + 1 else r.uncorrectable } := by
  have hc : BitVec.allOnes 8 = 255 := rfl
  have hu : BitVec.allOnes 4 = 15 := rfl
  cases bad <;> simp [State.countedRecord, FaultRecord.count, reportAt, satInc, hc, hu]

theorem State.Calm.of_off {rep : Report} (hoff : s.spareCtrl.reportCorrected = false)
    (h : s.dev.state = .ready → s.spareCtrl.threshold = 0 ∧ s.spareCtrl.autoUncorrectable = false) : s.Calm rep :=
  ⟨by simp [hoff], h⟩

/-- The fault table takes the report at the end of the grant, and posts what it posts. -/
theorem State.report_taken {c : Instr} (hq : s.quietEnd) (hoff : s.spareCtrl.reportCorrected = false)
    (hreq : c = .mountReadDone ∧ src = .mount ∧ s.dev.state = .mounting ∧ s.port.grant = some (.mountRead a) ∧
        s.mount.word.toNat < 511 ∨
      s.dev.state = .ready ∧ s.spareCtrl.threshold = 0 ∧ s.spareCtrl.autoUncorrectable = false ∧
        ((∃ n l, c = .fetchComplete ∧ src = hostSource n ∧ s.port.grant = some (.wordRead n l a)) ∨
         (∃ p, c = .scrubWordDone ∧ src = .scrub ∧ s.port.grant = some (.scrub a p false) ∧
           s.scrub.passEvent = false ∧ s.dir.gen ≠ 0xFFFFFFFF)))
    (hrep : reportOf a src (decodeWord (s.cell a)) = some (reportAt a src bad)) :
    ∃ t, exec c s = .next t ∧ t.mig = s.mig ∧ (src ≠ .scrub → t.array = s.array) ∧
      t.faults = s.reported (reportAt a src bad) ∧ (c = .mountReadDone ∨
        bad = false ∧ s.host.held = none ∧ (∀ n, ∀ x ∈ (s.chan n).readAhead, x.mark = none) →
        t.events = s.reportPosts (reportAt a src bad) s.events) := by
  rcases hreq with ⟨rfl, rfl, hdev, hg, hw⟩ |
    ⟨-, hthreshold, hauto, ⟨n, l, rfl, rfl, hg⟩ | ⟨p, rfl, rfl, hg, hpass, hgen⟩⟩
  · obtain ⟨m, k, hdone⟩ := State.mountReadDone_calm (s := s.clearGrant) (rep := reportAt a .mount bad)
      (.of_off hoff fun h => nomatch hdev.symm.trans h)
      hrep (show s.mount.word.toNat ≠ 511 by omega)
    exact ⟨_, congrArg Host.Outcome.next (State.completeKind_quiet hq hg rfl hdone rfl rfl rfl rfl rfl), rfl, fun _ => rfl, rfl,
      fun _ => rfl⟩
  · have hcalm : s.clearGrant.Calm (reportAt a (hostSource n) bad) := .of_off hoff fun _ => ⟨hthreshold, hauto⟩
    obtain ⟨honly, hf, he⟩ := State.fetchDone_calm (l := l) hcalm hrep
    exact ⟨_, congrArg Host.Outcome.next (State.completeKind_quiet hq hg rfl rfl
      ((congrArg Port.stopped honly.port).trans rfl) honly.scrub honly.map honly.pCode honly.dir), honly.mig,
      fun _ => honly.array, hf, fun h => he
        (h.elim (fun h => nomatch h) fun h => ⟨h.1, h.2.1, h.2.2 n⟩)⟩
  · have hcalm : s.clearGrant.Calm (reportAt a .scrub bad) := .of_off hoff fun _ => ⟨hthreshold, hauto⟩
    obtain ⟨t, ht, hmig, hport, hrange, hpass', hf, he⟩ := State.scrubDone_calm (p := p) hcalm hrep hpass hgen
    obtain ⟨c, e, hend, hevents⟩ := State.completeKind_settles (k := fun g => g matches .scrub _ _ _) hq.2.2.1 hq.1 hg rfl
      ht hport (hrange.trans hq.2.2.2.1)
    exact ⟨_, congrArg Host.Outcome.next hend, hmig, fun h => absurd rfl h, hf, fun h => (hevents hpass').trans (he
      (h.elim (fun h => nomatch h) fun h => h.1))⟩

end

/-- Settles O56: what the fault table makes of the report, by its record, its empty slot, its eviction or none. -/
theorem reportsAreCounted : Obligations.ReportsAreCounted := by
  intro s c src a bad d i hq hoff hreq hcell b counted fresh alone
  obtain ⟨t, ht, hmig, harray, hf, he⟩ := State.report_taken hq hoff hreq (reportOf_bad (src := src) hcell)
  have silent {f : FaultTable} (h : s.countReport (reportAt a src bad) = some f) :
      t.faults = f ∧ (alone → t.events = s.events) :=
    ⟨by rw [hf, State.reported, h]; rfl, fun hal => (he hal).trans (by rw [State.reportPosts, h])⟩
  have unrecorded (h : ∀ x ∈ s.faults.slots.toList, ∃ r, x = some r ∧ r.phys ≠ b) : s.faults.recordOf b = none := by
    refine FaultTable.recordOf_eq_none_iff.mpr (FaultTable.slotOf_eq_none_iff.mpr fun j x hx => ?_)
    obtain ⟨r, hr, hne⟩ := h _ (List.mem_of_getElem? hx)
    cases hr
    exact hne
  have new (h : s.faults.recordOf b = none) : s.countReport (reportAt a src bad) = s.faults.insert fresh :=
    State.countReport_new h
  refine ⟨t, ht, hmig, harray, fun r hr => ?_, fun k hnone hk hfirst => ?_, fun k v pre post hall hk huniq horder hv => ?_,
    fun hall => ?_⟩
  · obtain ⟨j, -, hcount⟩ := State.countReport_found (rep := reportAt a src bad) hr
    obtain ⟨hfaults, hevents⟩ := silent hcount
    have hrec := State.countReport_recordOf (rep := reportAt a src bad) hr hcount
    rw [hfaults]
    exact ⟨hrec.trans (congrArg some (State.countedRecord_eq s r)), hevents, rfl, rfl, rfl⟩
  · obtain ⟨hfaults, hevents⟩ := silent ((new hnone).trans (FaultTable.insert_empty hk hfirst fresh))
    rw [hfaults]
    exact ⟨hevents, rfl, rfl, rfl, FaultTable.setSlot_toList _ _ _⟩
  · have hfull : ∀ x ∈ s.faults.slots.toList, x.isSome = true := fun x hx => by
      obtain ⟨r, rfl, -⟩ := hall x hx
      rfl
    have hevict : s.faults.Evicts k v pre post := ⟨FaultTable.aged_of_unique hk huniq, horder, hv⟩
    obtain ⟨hfaults, hevents⟩ := silent ((new (unrecorded hall)).trans
      (FaultTable.insert_evicting hfull hevict.evictee fresh))
    rw [hfaults]
    exact ⟨FaultTable.evicted_refilled _ _ _ _, hevents, FaultTable.evicted_touched s.faults k v b, rfl, rfl⟩
  · have hfull : ∀ x ∈ s.faults.slots.toList, x.isSome = true := fun x hx => by
      obtain ⟨r, rfl, -⟩ := hall x hx
      rfl
    have hnone : s.faults.evictee = none := FaultTable.evictee_none fun x hx => by
      obtain ⟨r, hr, -, hst⟩ := hall x hx
      exact ⟨r, hr, hst⟩
    have hcount : s.countReport (reportAt a src bad) = none := (new (unrecorded fun x hx => by
      obtain ⟨r, hr, hne, -⟩ := hall x hx
      exact ⟨r, hr, hne⟩)).trans (FaultTable.insert_none hfull hnone fresh)
    refine ⟨by rw [hf, State.reported, hcount]; rfl, fun hal => (he hal).trans ?_⟩
    rw [State.reportPosts, hcount]
    rfl

/-! ### A scrub visit of a good word (R112, R113) -/

section
variable {s t : State} {a : Addr} {p : Bool} {d : Word}

theorem State.scrubDone_clean (hh : s.scrub.holds = true) (h : s.cell a = freshWord d) (range : Bool) :
    s.scrubDone a p range = ((s.noteRead a).dropScrubGrant).scrubProgress a range := by
  have hoff (x : State) : x.scrubHandOff a { cls := .clean, correctedFlag := false, data := d, tag := false } = x := by
    unfold State.scrubHandOff
    split
    · rfl
    · split <;> simp_all
  rw [State.scrubDone_eq, if_pos hh]
  simp only [State.scrubWritten, h, decodeWord_fresh, scrubWriteback, State.scrubResult, reportOf, State.scrubCount, hoff]

theorem State.roleOf_inside {b : Block} (h : b.toNat < s.physBlocks - 2) (c : Copy) : s.roleOf b ≠ .copy c := by
  unfold State.roleOf
  rw [if_neg (by omega), if_neg (by omega)]
  split
  · simp
  · split
    · split <;> simp
    · split <;> simp

theorem State.scrubHandOff_poisoned {r : DecodeResult} (hr : r.cls = .poisoned)
    (hb : (blockOf a).toNat < s.physBlocks - 2) : s.scrubHandOff a r = s := by
  unfold State.scrubHandOff
  split
  · rfl
  · split
    · simp_all
    · simp_all
    · rename_i hrole _
      exact absurd hrole (State.roleOf_inside hb _)
    · rfl

/-- Outside the directory copies a poisoned word is counted, and nothing is handed off. -/
theorem State.scrubDone_poisoned (hh : s.scrub.holds = true) (h : s.cell a = poisonedWord)
    (hb : (blockOf a).toNat < s.physBlocks - 2) : s.scrubDone a p false = ({ s.noteRead a with
      scrub := { s.scrub with holds := false, poisonedSeen := satInc s.scrub.poisonedSeen } } : State).scrubProgress a false := by
  let x : State := { s.noteRead a with
    scrub := { s.scrub with holds := false, poisonedSeen := satInc s.scrub.poisonedSeen } }
  have hoff := State.scrubHandOff_poisoned (s := x) (a := a) (r := decodeWord poisonedWord) (by simp) hb
  rw [State.scrubDone_eq, if_pos hh, State.scrubWritten, h]
  exact congrArg (State.scrubProgress · a false) hoff

/-- The end of a scrub visit after which nothing stands to be passed over. -/
theorem State.scrubVisit_ends (hq : s.quietEnd) (hg : s.port.grant = some (.scrub a p false))
    (ht : s.clearGrant.scrubDone a p false = t) (hport : t.port.stopped = s.port.stopped) (hr : t.scrub.range = none)
    (hk : t.skipped t.scrub.block = false) : exec .scrubWordDone s = .next t := by
  subst ht
  exact congrArg Host.Outcome.next ((State.completeKind_of hg rfl).trans
    (State.finish_quiet hq.2.2.1 (hport.trans hq.1) hr hk))

/-- What a scrub visit leaves in the array stays to the end of its event. -/
theorem State.scrubVisit_array (hs : s.port.stopped = false) (hrun : s.rangeRuns = false)
    (hg : s.port.grant = some (.scrub a p false)) :
    ∃ t, exec .scrubWordDone s = .next t ∧ t.array = (s.clearGrant.scrubWritten a p).array := by
  have hdone : OnlyEngines (s.clearGrant.scrubWritten a p) (s.clearGrant.scrubDone a p false) := by
    rw [State.scrubDone_eq]
    split
    · exact (OnlyEngines.dropScrubGrant _).trans (.scrubResult _ _ _ _ _)
    · exact .reportOnly _ _
  have hsettled := hdone.trans (.scrubSettle _)
  have hrun' : s.clearGrant.rangeRuns = false := hrun
  refine ⟨_, congrArg Host.Outcome.next (State.completeKind_of hg rfl), ?_⟩
  rw [State.finish, State.rangeEvent_quiet hrun', State.fenceIfDue_running]
  · exact hsettled.array
  · refine (congrArg Port.stopped hsettled.port).trans ?_
    rw [State.scrubWritten_frame]
    exact hs

theorem State.scrubWritten_corrected {i : Nat} (hi : i < 40) (h : s.cell a = flipBit (freshWord d) i) :
    (s.scrubWritten a p).array = s.array.put (s.maOf a).toNat (freshWord d) := by
  simp only [State.scrubWritten, decodeWord_oneFlip hi h, scrubWriteback]
  rfl

theorem State.scrubWritten_uncorrectable (h : (decodeWord (s.cell a)).cls = .uncorrectable) :
    (s.scrubWritten a p).array = if p then s.array.put (s.maOf a).toNat poisonedWord else s.array := by
  simp only [State.scrubWritten, scrubWriteback, h]
  cases p <;> rfl

/-- R110: a credit is spent. -/
theorem Scrub.spend_eq (c : Scrub) : c.spend = { c with
    backlog := if c.backlog = 0 then 0 else c.backlog - 1, inLag := false
    urgent := c.urgent && Decidable.decide (c.urgentLevel >>> 1 < if c.backlog = 0 then 0 else c.backlog - 1) } := by
  have hlag : ((if c.backlog = 0 then 0 else c.backlog - 1) == 15) = false := by
    rw [beq_eq_false_iff_ne]
    split
    · decide
    · bv_omega
  simp only [Scrub.spend, Scrub.clearLevel, hlag, Bool.and_false]
  rfl

theorem State.completeSlice_eq (s : State) : s.completeSlice = { s with
    scrub := { s.scrub.spend with
      block := s.nextSlice.1, slice := s.nextSlice.2, word := 0
      passes := if s.passEnds then s.scrub.passes + 1 else s.scrub.passes }
    events := if s.passEnds ∧ s.scrub.passEvent = true then s.events.offer
        { kind := .scrubPass, source := .scrub, phys := none, logical := none, offset := none, detail := s.scrub.poisonedSeen }
      else s.events } := by
  unfold State.completeSlice
  cases s.passEnds <;> cases s.scrub.passEvent <;> rfl

/-! ### The credit of a timer expiry (R109, R110) -/

theorem State.completeSlice_ticks (s : State) : s.completeSlice.scrub.ticks = s.scrub.ticks := by
  rw [State.completeSlice_eq]
  rfl

theorem skipSlices_ticks (n : Nat) (s : State) : (skipSlices n s).scrub.ticks = s.scrub.ticks := by
  induction n generalizing s with
  | zero => rfl
  | succ n ih =>
    rw [skipSlices]
    split
    · exact (ih _).trans s.completeSlice_ticks
    · rfl

theorem State.advanceRange_ticks (s : State) (r : RangeRun) (x : Addr) :
    (s.advanceRange r x).scrub.ticks = s.scrub.ticks := by
  unfold State.advanceRange State.endRange
  split
  · dsimp only
    split <;> rfl
  · rfl

theorem skipBlocks_ticks (n : Nat) (s : State) : (skipBlocks n s).scrub.ticks = s.scrub.ticks := by
  induction n generalizing s with
  | zero => rfl
  | succ n ih =>
    rw [skipBlocks]
    split
    · rfl
    · split
      · exact (ih _).trans (s.advanceRange_ticks _ _)
      · rfl

theorem State.scrubSettle_ticks (s : State) : s.scrubSettle.scrub.ticks = s.scrub.ticks := by
  unfold State.scrubSettle
  split
  · rfl
  · exact (skipSlices_ticks _ _).trans (skipBlocks_ticks _ s)

theorem State.offerCredit_ticks (s : State) : s.offerCredit.scrub.ticks = s.scrub.ticks := by
  unfold State.offerCredit
  split
  · dsimp only
    split <;> rfl
  · rfl

theorem State.timerExpires_ticks (s : State) : s.timerExpires.scrub.ticks = 0 :=
  (State.scrubSettle_ticks _).trans (State.offerCredit_ticks _)

theorem exec_scrubTimerExpiry (h : s.timerRuns = true) : exec .scrubTimerExpiry s = .next s.timerExpires :=
  congrArg Host.Outcome.next (if_pos h)

theorem State.offerCredit_room (h : s.scrub.backlog ≠ 15) : s.offerCredit = { s with scrub := { s.scrub with
    backlog := s.scrub.backlog + 1
    urgent := s.scrub.urgent || Decidable.decide (s.scrub.urgentLevel ≤ s.scrub.backlog + 1) } } := if_neg h

theorem State.offerCredit_full (h : s.scrub.backlog = 15) : s.offerCredit = { s with
    scrub := { s.scrub with lagCount := satInc s.scrub.lagCount, inLag := true }
    events := if s.scrub.inLag then s.events else s.events.offer
      { kind := .scrubLag, source := .scrub, phys := some s.scrub.block, logical := none, offset := none
        detail := satInc s.scrub.lagCount } } := by
  refine (if_pos h).trans ?_
  cases s.scrub.inLag <;> rfl

/-- Nothing stands to be passed over: a visit is due or in progress. -/
def State.Visiting (s : State) : Prop :=
  s.scrub.holds = true ∨ (s.scrub.range = none → s.skipped s.scrub.block = false) ∧
    ∀ r, s.scrub.range = some r → s.skipped (blockOf r.cursor) = false

theorem State.Visiting.scrubSettle (h : s.Visiting) : s.scrubSettle = s := by
  rcases h with hh | ⟨hnormal, hrange⟩
  · exact State.scrubSettle_holds hh
  · cases hr : s.scrub.range with
    | none => exact State.scrubSettle_served hr (hnormal hr)
    | some r => exact State.scrubSettle_ranging hr (hrange r hr)

theorem State.timerExpires_room (h : s.Visiting) (hb : s.scrub.backlog ≠ 15) : s.timerExpires = { s with
    scrub := { s.scrub with
      ticks := 0, backlog := s.scrub.backlog + 1
      urgent := s.scrub.urgent || Decidable.decide (s.scrub.urgentLevel ≤ s.scrub.backlog + 1) } } := by
  rw [State.timerExpires, State.offerCredit_room (s := s.clearTicks) hb]
  exact State.Visiting.scrubSettle (s := { s with scrub := _ }) h

theorem State.timerExpires_full (h : s.Visiting) (hb : s.scrub.backlog = 15) : s.timerExpires = { s with
    scrub := { s.scrub with ticks := 0, lagCount := satInc s.scrub.lagCount, inLag := true }
    events := if s.scrub.inLag then s.events else s.events.offer
      { kind := .scrubLag, source := .scrub, phys := some s.scrub.block, logical := none, offset := none
        detail := satInc s.scrub.lagCount } } := by
  rw [State.timerExpires, State.offerCredit_full (s := s.clearTicks) hb]
  exact State.Visiting.scrubSettle (s := { s with scrub := _, events := _ }) h

theorem State.timerRuns_iff : s.timerRuns = true ↔ s.dev.state = .ready ∧ s.scrub.enable = true ∧ s.scrub.period ≠ 0 := by
  simp [State.timerRuns, and_assoc]

theorem State.passEnds_midway (h : s.scrub.slice ≠ 15) : s.passEnds = false := by
  rw [State.passEnds, beq_eq_false_iff_ne.mpr h, Bool.false_and]

theorem State.nextSlice_midway (h : s.scrub.slice ≠ 15) : s.nextSlice = (s.scrub.block, s.scrub.slice + 1) := if_pos h

/-- A credit that a skipped slice spends at once (R107). -/
theorem State.timerExpires_skips (ht : s.timerRuns = true) (hr : s.scrub.range = none) (hh : s.scrub.holds = false)
    (hb : s.scrub.backlog = 0) (hk : s.skipped s.scrub.block = true) (hl : s.scrub.slice ≠ 15) :
    s.timerExpires = { s with scrub := { s.scrub with
      ticks := 0, slice := s.scrub.slice + 1, word := 0, urgent := false, inLag := false } } := by
  obtain ⟨hready, henable, -⟩ := State.timerRuns_iff.mp ht
  let x : State := { s with scrub := { s.scrub with
    ticks := 0, backlog := 1, urgent := s.scrub.urgent || Decidable.decide (s.scrub.urgentLevel ≤ 1) } }
  have hx : s.clearTicks.offerCredit = x := by
    rw [State.offerCredit_room (s := s.clearTicks) (by rw [show s.clearTicks.scrub.backlog = 0 from hb]; decide)]
    simp only [State.clearTicks, hb]
    rfl
  have hdue : (x.normalDue && x.skipped x.scrub.block) = true := by
    have hskip : x.skipped x.scrub.block = true := hk
    rw [hskip, Bool.and_true]
    simp [State.normalDue, x, hready, henable, hr]
  have hslices : skipSlices 1 x = x.completeSlice := by
    rw [skipSlices, if_pos hdue, skipSlices]
  have hsettle : x.scrubSettle = skipSlices 1 x := by
    have hholds : x.scrub.holds = false := hh
    have hrange : x.scrub.range = none := hr
    rw [State.scrubSettle, hholds, skipBlocks_none hrange]
    rfl
  rw [State.timerExpires, hx, hsettle, hslices, State.completeSlice_eq, State.passEnds_midway (s := x) hl,
    State.nextSlice_midway (s := x) hl, Scrub.spend_eq]
  simp [x, hb]

end

/-! ### A scrub visit of a bad word (R113) -/

section
variable {s t : State} {a : Addr} {b : Block} {r : DecodeResult} {w : Bool}

/-- `t` differs from `s` in the fault table, where a record of `b` stays, in the scrub engine's cursor and counts, the
event queue and the count of free orders alone. -/
structure ScrubBooks (b : Block) (s t : State) : Prop where
  frame : t = { s with faults := t.faults, scrub := t.scrub, events := t.events, choices := t.choices }
  range : t.scrub.range = s.scrub.range
  passEvent : t.scrub.passEvent = s.scrub.passEvent
  recorded : (s.faults.recordOf b).isSome = true → (t.faults.recordOf b).isSome = true

namespace ScrubBooks

theorem refl (b : Block) (s : State) : ScrubBooks b s s := ⟨rfl, rfl, rfl, id⟩

theorem trans {u : State} (h : ScrubBooks b s t) (k : ScrubBooks b t u) : ScrubBooks b s u where
  frame := by
    rw [k.frame, h.frame]
  range := k.range.trans h.range
  passEvent := k.passEvent.trans h.passEvent
  recorded := k.recorded ∘ h.recorded

theorem drawn (b : Block) (s : State) : ScrubBooks b s s.drawn := ⟨rfl, rfl, rfl, id⟩

theorem scrubCount (b : Block) (s : State) (a : Addr) (r : DecodeResult) (w : Bool) :
    ScrubBooks b s (s.scrubCount a r w) := by
  obtain ⟨c, e, heq, hrange, hpass, -⟩ := s.scrubCount_frame a r w
  rw [heq]
  exact ⟨rfl, hrange, hpass, id⟩

variable (h : ScrubBooks b s t)
include h

theorem map : t.map = s.map := (congrArg State.map h.frame).trans rfl
theorem dir : t.dir = s.dir := (congrArg State.dir h.frame).trans rfl
theorem dev : t.dev = s.dev := (congrArg State.dev h.frame).trans rfl
theorem pCode : t.pCode = s.pCode := (congrArg State.pCode h.frame).trans rfl
theorem port : t.port = s.port := (congrArg State.port h.frame).trans rfl
theorem spareCtrl : t.spareCtrl = s.spareCtrl := (congrArg State.spareCtrl h.frame).trans rfl

theorem roleOf (c : Block) : t.roleOf c = s.roleOf c := State.roleOf_congr h.map h.pCode c

end ScrubBooks

/-- Reports of uncorrectable words that ask for nothing. -/
def State.Unasking (s : State) : Prop := s.spareCtrl.threshold = 0 ∧ s.spareCtrl.autoUncorrectable = false

/-- `ScrubBooks`, with nothing posted where `b` has a record. -/
def ScrubSilent (b : Block) (s t : State) : Prop :=
  ScrubBooks b s t ∧ ((s.faults.recordOf b).isSome = true → t.events = s.events)

theorem ScrubSilent.trans {u : State} (h : ScrubSilent b s t) (k : ScrubSilent b t u) : ScrubSilent b s u :=
  ⟨h.1.trans k.1, fun hrec => (k.2 (h.1.recorded hrec)).trans (h.2 hrec)⟩

theorem ScrubSilent.drawn (b : Block) (s : State) : ScrubSilent b s s.drawn := ⟨.drawn b s, fun _ => rfl⟩

theorem ScrubSilent.scrubProgress (b : Block) (a : Addr) (h : s.scrub.passEvent = false) :
    ScrubSilent b s (s.scrubProgress a false) := by
  obtain ⟨c, heq, hrange, hpass⟩ := State.scrubProgress_frame h a
  rw [heq]
  exact ⟨⟨rfl, hrange, hpass.trans h.symm, id⟩, fun _ => rfl⟩

theorem ScrubSilent.takeReport (h : s.Unasking) (src : Source) :
    ScrubSilent (blockOf a) s (s.takeReport (reportAt a src true)) := by
  rw [State.takeReport_calm ⟨by simp [reportAt], fun _ => h⟩]
  have counted (hrec : (s.faults.recordOf (blockOf a)).isSome = true) : ∃ q f,
      s.countReport (reportAt a src true) = some f ∧ f.recordOf (blockOf a) = some q := by
    obtain ⟨q, hq⟩ := Option.isSome_iff_exists.mp hrec
    obtain ⟨i, -, hcount⟩ := State.countReport_found (rep := reportAt a src true) hq
    exact ⟨_, _, hcount, State.countReport_recordOf (rep := reportAt a src true) hq hcount⟩
  refine ⟨⟨rfl, rfl, rfl, fun hrec => ?_⟩, fun hrec => ?_⟩
  · obtain ⟨q, f, hcount, hq⟩ := counted hrec
    simp [State.reported, hcount, hq]
  · obtain ⟨q, f, hcount, -⟩ := counted hrec
    simp [State.reportPosts, hcount]

/-! #### The hand-off leaves the scrub engine alone -/

theorem State.failCommit_aside (s : State) (x : EventRecord) :
    (s.failCommit x).scrub = s.scrub ∧ ∀ c, ((s.failCommit x).dir.known c) = s.dir.known c := by
  have habandon : OnlyMigration (s.setReadonly.post x) (s.setReadonly.post x).abandonWaiting := by
    unfold State.abandonWaiting
    split
    · split
      · exact .abandon _ _ _
      · rfl
    · rfl
  rw [State.failCommit, State.tellCommitFailure_frame]
  dsimp only
  rw [habandon]
  exact ⟨rfl, fun c => by cases c <;> rfl⟩

theorem State.requestCommit_scrub (s : State) : s.requestCommit.scrub = s.scrub := by
  unfold State.requestCommit State.startCommit
  split
  · split
    · rfl
    · split
      · exact (s.failCommit_aside _).1
      · rfl
  · rfl

theorem State.scrubHandOff_scrub (s : State) (a : Addr) (r : DecodeResult) : (s.scrubHandOff a r).scrub = s.scrub := by
  have found (c : Copy) : (s.dirFinding c).scrub = s.scrub := by
    unfold State.dirFinding
    dsimp only
    split
    · split
      · rfl
      · exact State.requestCommit_scrub _
    · rfl
  unfold State.scrubHandOff State.condemn
  split
  · rfl
  split
  · split
    · exact State.requestCommit_scrub _
    · rfl
  · exact found _
  · exact found _
  · rfl

/-! #### The parts of a visit around the hand-off -/

/-- The record of an uncorrectable word. -/
def State.scrubFound (s : State) (a : Addr) (w : Bool) : EventRecord :=
  { kind := .uncorrectable, source := .scrub, phys := some (blockOf a), logical := s.servedBy (blockOf a)
    offset := some (offsetOf a), detail := if w then 1 else 0 }

theorem ScrubBooks.counts (h : ScrubBooks b s t) (hr : r.cls = .uncorrectable) (a : Addr) (w : Bool) :
    (t.scrubCount a r w).events = t.events.offer (s.scrubFound a w) := by
  have hserved : t.servedBy (blockOf a) = s.servedBy (blockOf a) := by
    rw [h.frame]
    rfl
  simp only [State.scrubCount, hr, State.post, hserved, State.scrubFound]

theorem insertReport_places (rep : Report) (f g h : State → State) (s : State) :
    insertReport rep [f, g, h] s = h (g (f (s.drawn.takeReport rep))) ∨
    insertReport rep [f, g, h] s = h (g ((f s.drawn).drawn.takeReport rep)) ∨
    insertReport rep [f, g, h] s = h ((g (f s.drawn).drawn).drawn.takeReport rep) ∨
    insertReport rep [f, g, h] s = (h (g (f s.drawn).drawn).drawn).takeReport rep := by
  simp only [insertReport]
  split
  · exact .inl rfl
  split
  · exact .inr (.inl rfl)
  split
  · exact .inr (.inr (.inl rfl))
  · exact .inr (.inr (.inr rfl))

theorem State.Unasking.of_books (h : s.Unasking) (k : ScrubBooks b s t) : t.Unasking := by
  rw [State.Unasking, k.spareCtrl]
  exact h

/-- What comes before the hand-off, the count and the report perhaps, and what comes after it: the word's end and the
report perhaps. -/
theorem State.scrubResult_around (hpass : s.scrub.passEvent = false) (hasks : s.Unasking)
    (hr : r.cls = .uncorrectable) (a : Addr) (w : Bool) : ∃ x, ScrubBooks (blockOf a) s x ∧
      ((s.faults.recordOf (blockOf a)).isSome = true → x.events = s.events.offer (s.scrubFound a w)) ∧
      ScrubSilent (blockOf a) (x.scrubHandOff a r) (s.scrubResult a false w r) := by
  have hdrawn := ScrubSilent.drawn (blockOf a) s
  have hcount (y : State) := ScrubBooks.scrubCount (blockOf a) y a r w
  have report {y : State} (hy : y.Unasking) : ScrubSilent (blockOf a) y (y.takeReport (reportAt a .scrub true)) :=
    .takeReport hy _
  have after {x : State} (hx : ScrubBooks (blockOf a) s x) :
      (x.scrubHandOff a r).Unasking ∧ (x.scrubHandOff a r).scrub.passEvent = false := by
    rw [State.Unasking, (OnlyEngines.scrubHandOff x a r).spareCtrl, hx.spareCtrl, State.scrubHandOff_scrub,
      hx.passEvent]
    exact ⟨hasks, hpass⟩
  have found {x y : State} (hy : ScrubSilent (blockOf a) s y) (hx : ScrubSilent (blockOf a) (y.scrubCount a r w) x)
      (hrec : (s.faults.recordOf (blockOf a)).isSome = true) : x.events = s.events.offer (s.scrubFound a w) := by
    rw [hx.2 ((hcount y).recorded (hy.1.recorded hrec)), hy.1.counts hr, hy.2 hrec]
  have hfirst := hdrawn.trans (report (hasks.of_books hdrawn.1))
  have hlate := hdrawn.1.trans ((hcount s.drawn).trans (.drawn _ _))
  have hplaces : s.scrubResult a false w r = insertReport (reportAt a .scrub true)
      [fun x => x.scrubCount a r w, fun x => x.scrubHandOff a r, fun x => x.scrubProgress a false] s := by
    rw [State.scrubResult, reportOf_uncorrectable hr]
    rfl
  rw [hplaces]
  rcases insertReport_places (reportAt a .scrub true) (fun x => x.scrubCount a r w) (fun x => x.scrubHandOff a r)
    (fun x => x.scrubProgress a false) s with h | h | h | h <;> rw [h]
  · exact ⟨_, hfirst.1.trans (hcount _), found hfirst ⟨.refl _ _, fun _ => rfl⟩,
      .scrubProgress _ a (after (hfirst.1.trans (hcount _))).2⟩
  · have hsecond := (ScrubSilent.drawn (blockOf a) (s.drawn.scrubCount a r w)).trans (report (hasks.of_books hlate))
    have hx := hdrawn.1.trans ((hcount _).trans hsecond.1)
    exact ⟨_, hx, found hdrawn hsecond, .scrubProgress _ a (after hx).2⟩
  · obtain ⟨hunasking, hquiet⟩ := after hlate
    have hthird := (ScrubSilent.drawn (blockOf a) _).trans (report (hunasking.of_books (.drawn (blockOf a) _)))
    exact ⟨_, hlate, found hdrawn (.drawn _ _), hthird.trans (.scrubProgress _ a (hthird.1.passEvent.trans hquiet))⟩
  · obtain ⟨hunasking, hquiet⟩ := after hlate
    have hmoved := (ScrubSilent.drawn (blockOf a) _).trans (.scrubProgress (blockOf a) a hquiet)
    exact ⟨_, hlate, found hdrawn (.drawn _ _), hmoved.trans (report (hunasking.of_books hmoved.1))⟩

/-! #### The hand-offs (R20, R51) -/

theorem State.scrubHandOff_data (h : s.roleOf (blockOf a) = .data) : s.scrubHandOff a r = s := by
  unfold State.scrubHandOff
  split
  · rfl
  · split <;> simp_all

theorem State.scrubHandOff_spare {k : Nat} (hd : s.dev.state = .ready) (h : s.roleOf (blockOf a) = .spare k .free)
    (hr : r.cls = .uncorrectable) (hdir : s.dir.state ≠ .idle) : s.scrubHandOff a r = { s.markCondemned k .scrub with
      dir := { s.dir with pendingFlag := true } } := by
  have hfree : s.map.spares[k]? = some .free := (State.roleOf_spare_iff.mp h).2.2.2.2.2
  rw [State.scrubHandOff, if_neg (not_not_intro hd), h, hr]
  exact (if_pos hfree).trans (State.requestCommit_busy (s := s.markCondemned k .scrub) hdir)

theorem State.scrubHandOff_copy {c : Copy} (hd : s.dev.state = .ready) (h : s.roleOf (blockOf a) = .copy c)
    (hr : r.cls = .uncorrectable ∨ r.cls = .poisoned) : s.scrubHandOff a r = s.dirFinding c := by
  rw [State.scrubHandOff, if_neg (not_not_intro hd), h]
  rcases hr with hr | hr <;> rw [hr]

theorem State.dirFinding_valid {c : Copy} (h : (s.dir.known c).valid = true) : s.dirFinding c =
    if s.dev.dirReadonly then { s with dir := s.dir.markInvalid c }
    else ({ s with dir := s.dir.markInvalid c } : State).requestCommit := if_pos h

theorem CommitUnit.markInvalid_state (d : CommitUnit) (c : Copy) : (d.markInvalid c).state = d.state := by
  cases c <;> rfl

theorem CommitUnit.known_markInvalid_invalid (d : CommitUnit) {c x : Copy} (h : (d.known x).valid = false) :
    ((d.markInvalid c).known x).valid = false := by
  by_cases hx : x = c
  · subst hx
    exact d.known_markInvalid x
  · cases c <;> cases x <;> simp_all [CommitUnit.markInvalid, CommitUnit.setKnown, CommitUnit.known]

/-- R42: a copy known as invalid is so after a commit request, whatever comes of it. -/
theorem State.requestCommit_invalid {x : Copy} (h : (s.dir.known x).valid = false) :
    (s.requestCommit.dir.known x).valid = false := by
  unfold State.requestCommit State.startCommit
  split
  · split
    · exact h
    · split
      · rw [(s.failCommit_aside _).2 x]
        exact h
      · have hmark := s.dir.known_markInvalid_invalid (c := s.dir.chooseTarget) h
        cases x <;> exact hmark
  · cases x <;> exact h

theorem CommitUnit.chooseTarget_markInvalid (d : CommitUnit) (x : Copy) :
    (d.markInvalid x).chooseTarget = if d.copyA.valid = true ∧ x = .b then .b else .a := by
  rw [CommitUnit.chooseTarget_eq]
  cases x <;> cases h : d.copyA.valid <;> simp [CommitUnit.markInvalid, CommitUnit.setKnown, h]

/-! #### The end of the visit -/

/-- The state in which the engine acts on the word: read, and written back where it is. -/
def State.visited (s : State) (a : Addr) (p : Bool) : State := (s.clearGrant.scrubWritten a p).dropScrubGrant

theorem State.visited_frame (s : State) (a : Addr) (p : Bool) : ∃ array l, s.visited a p = { s with
    array := array, port := { s.port with grant := none, cls := none, accesses := l }
    scrub := { s.scrub with holds := false } } := by
  refine ⟨(s.clearGrant.scrubWritten a p).array, (s.clearGrant.scrubWritten a p).port.accesses, ?_⟩
  rw [State.visited, State.scrubWritten_frame]
  rfl

/-- A visit of a bad word: what comes before the hand-off, and the end of the event after it. -/
theorem State.scrubVisit_around {p : Bool} (hs : s.port.stopped = false) (hrun : s.rangeRuns = false)
    (hrange : s.scrub.range = none) (hg : s.port.grant = some (.scrub a p false)) (hh : s.scrub.holds = true)
    (hpass : s.scrub.passEvent = false) (hasks : s.Unasking) (hr : decodeWord (s.cell a) = r)
    (hcls : r.cls = .uncorrectable ∨ r.cls = .poisoned) : ∃ x t, exec .scrubWordDone s = .next t ∧
      ScrubBooks (blockOf a) (s.visited a p) x ∧ t.map = (x.scrubHandOff a r).map ∧ t.dir = (x.scrubHandOff a r).dir ∧
      t.array = (s.visited a p).array ∧ (r.cls = .uncorrectable → (s.faults.recordOf (blockOf a)).isSome = true →
        x.events = s.events.offer (s.scrubFound a p) ∧
          ((x.scrubHandOff a r).faults = x.faults → t.events = (x.scrubHandOff a r).events)) := by
  obtain ⟨array, l, hframe⟩ := s.visited_frame a p
  have hvpass : (s.visited a p).scrub.passEvent = false := by rw [hframe]; exact hpass
  have hvasks : (s.visited a p).Unasking := by rw [hframe]; exact hasks
  have hdone : s.clearGrant.completion (.scrub a p false) =
      (s.visited a p).scrubResult a false (scrubWriteback p r).isSome r := by
    subst hr
    exact (State.scrubDone_eq s.clearGrant a p false).trans (if_pos hh)
  have hengines := OnlyEngines.scrubResult (s.visited a p) a false (scrubWriteback p r).isSome r
  have ends (x : State) (hx : ScrubBooks (blockOf a) (s.visited a p) x) (hend : ScrubBooks (blockOf a) (x.scrubHandOff a r)
      ((s.visited a p).scrubResult a false (scrubWriteback p r).isSome r)) : ∃ t, exec .scrubWordDone s = .next t ∧
      t.map = (x.scrubHandOff a r).map ∧ t.dir = (x.scrubHandOff a r).dir ∧ t.array = (s.visited a p).array ∧
      t.events = ((s.visited a p).scrubResult a false (scrubWriteback p r).isSome r).events := by
    obtain ⟨c, e, ht, he⟩ := State.completeKind_settles (k := fun g => g matches .scrub _ _ _) hrun hs hg rfl hdone
      ((congrArg Port.stopped hengines.port).trans (by rw [hframe]))
      (by rw [hend.range, State.scrubHandOff_scrub, hx.range, hframe]; exact hrange)
    refine ⟨_, congrArg Host.Outcome.next ht, hend.map, hend.dir, hengines.array, he ?_⟩
    rw [hend.passEvent, State.scrubHandOff_scrub, hx.passEvent, hvpass]
  rcases hcls with hunc | hpois
  · obtain ⟨x, hx, hevents, hend⟩ := State.scrubResult_around hvpass hvasks hunc a (scrubWriteback p r).isSome
    obtain ⟨t, ht, hmap, hdir, harray, he⟩ := ends x hx hend.1
    refine ⟨x, t, ht, hx, hmap, hdir, harray, fun _ hrec => ?_⟩
    have hvrec : ((s.visited a p).faults.recordOf (blockOf a)).isSome = true := by rw [hframe]; exact hrec
    have hfound : (s.visited a p).scrubFound a (scrubWriteback p r).isSome = s.scrubFound a p := by
      rw [hframe, scrubWriteback, hunc]
      cases p <;> rfl
    refine ⟨by rw [hevents hvrec, hfound, hframe], fun hf => he.trans (hend.2 ?_)⟩
    rw [hf]
    exact hx.recorded hvrec
  · let x := (s.visited a p).scrubCount a r (scrubWriteback p r).isSome
    have hx : ScrubBooks (blockOf a) (s.visited a p) x := .scrubCount _ _ _ _ _
    have hresult : (s.visited a p).scrubResult a false (scrubWriteback p r).isSome r =
        (x.scrubHandOff a r).scrubProgress a false := by
      rw [State.scrubResult, reportOf, hpois]
    obtain ⟨t, ht, hmap, hdir, harray, -⟩ := ends x hx (by
      rw [hresult]
      exact (ScrubSilent.scrubProgress _ a (by rw [State.scrubHandOff_scrub, hx.passEvent, hvpass])).1)
    exact ⟨x, t, ht, hx, hmap, hdir, harray, fun hunc => by rw [hpois] at hunc; cases hunc⟩

end

section
variable {s : State} {a : Addr} {p : Bool} {d : Word}

/-! ### The 16th word of a slice (R105, R110) -/

theorem State.passEnds_iff : s.passEnds = true ↔ s.scrub.slice = 15 ∧ s.physBlocks - 1 ≤ s.scrub.block.toNat := by
  simp [State.passEnds]

theorem State.scrubDone_slice {b : Block} {l : BitVec 4} (hh : s.scrub.holds = true) (hcell : s.cell a = freshWord d)
    (hw : s.scrub.word = 15) (hnext : s.nextSlice = (b, l)) : s.scrubDone a p false = { s.noteRead a with
      scrub := { s.scrub with
        holds := false, word := 0, block := b, slice := l, inLag := false
        backlog := if s.scrub.backlog = 0 then 0 else s.scrub.backlog - 1
        urgent := s.scrub.urgent && Decidable.decide
          (s.scrub.urgentLevel >>> 1 < if s.scrub.backlog = 0 then 0 else s.scrub.backlog - 1)
        passes := if s.passEnds then s.scrub.passes + 1 else s.scrub.passes }
      events := if s.passEnds ∧ s.scrub.passEvent = true then s.events.offer
          { kind := .scrubPass, source := .scrub, phys := none, logical := none, offset := none
            detail := s.scrub.poisonedSeen }
        else s.events } := by
  have hnext' : (s.noteRead a).dropScrubGrant.nextSlice = (b, l) := hnext
  rw [State.scrubDone_clean hh hcell]
  refine (if_pos hw).trans ?_
  rw [State.completeSlice_eq, hnext', Scrub.spend_eq]
  rfl

end

/-! ### A word of a range run (R115, R116) -/

theorem blockOf_toNat (a : Addr) : (blockOf a).toNat = a.toNat / 256 := by
  have := a.isLt
  simp only [blockOf, BitVec.extractLsb'_toNat, Nat.shiftRight_eq_div_pow]
  omega

theorem offsetOf_toNat (a : Addr) : (offsetOf a).toNat = a.toNat % 256 := by
  simp only [offsetOf, BitVec.extractLsb'_toNat, Nat.shiftRight_zero]

theorem wordAddr_last_succ {b l : Block} (h : b < l) : wordAddr b 255 + 1 = wordAddr (b + 1) 0 := by
  have hl := l.isLt
  have hb : (b + 1).toNat = b.toNat + 1 := by bv_omega
  refine BitVec.eq_of_toNat_eq ?_
  rw [BitVec.toNat_add, wordAddr_toNat, wordAddr_toNat, hb]
  simp
  bv_omega

section
variable {s : State} {a : Addr} {p : Bool} {d : Word} {r : RangeRun}

theorem State.advanceRange_next {x : Addr} (h : x < wordAddr r.last 255) :
    s.advanceRange r x = { s with scrub := { s.scrub with range := some { r with cursor := x + 1 } } } := by
  refine if_neg fun hlast => ?_
  obtain ⟨hb, ho⟩ := hlast
  have hb' : r.last.toNat ≤ x.toNat / 256 := by rw [← blockOf_toNat]; exact BitVec.le_def.mp hb
  have ho' : x.toNat % 256 = 255 := by rw [← offsetOf_toNat, ho]; rfl
  have hx : x.toNat < r.last.toNat * 256 + 255 := by
    have := BitVec.lt_def.mp h
    rwa [wordAddr_toNat] at this
  omega

theorem State.advanceRange_last : s.advanceRange r (wordAddr r.last 255) = s.endRange :=
  if_pos ⟨by rw [blockOf_wordAddr]; exact BitVec.le_refl _, offsetOf_wordAddr _ _⟩

theorem skipBlocks_visited (hr : s.scrub.range = some r) (hk : s.skipped (blockOf r.cursor) = false) (n : Nat) :
    skipBlocks n s = s := by
  cases n <;> simp [skipBlocks, hr, hk]

/-- A block of a range run is passed over. -/
theorem State.scrubSettle_block {b : Block} (hr : s.scrub.range = some r) (hd : s.dev.state = .ready)
    (hh : s.scrub.holds = false) (hb : blockOf r.cursor = b) (hlt : b < r.last) (hk : s.skipped b = true)
    (hk' : s.skipped (b + 1) = false) : s.scrubSettle = { s with scrub := { s.scrub with
      range := some { r with cursor := wordAddr (b + 1) 0 } } } := by
  let t : State := { s with scrub := { s.scrub with range := some { r with cursor := wordAddr (b + 1) 0 } } }
  have hnext : s.advanceRange r (wordAddr b 255) = t := by
    rw [State.advanceRange_next, wordAddr_last_succ hlt]
    rw [BitVec.lt_def, wordAddr_toNat, wordAddr_toNat]
    have := BitVec.lt_def.mp hlt
    omega
  have hstays (n : Nat) : skipBlocks n t = t :=
    skipBlocks_visited (s := t) rfl (by rw [blockOf_wordAddr]; exact hk') n
  have hblocks (n : Nat) : skipBlocks (n + 1) s = t := by
    simp only [skipBlocks, hr, hd, hb, hk, beq_self_eq_true, Bool.true_and, if_true, hnext, hstays]
  obtain ⟨n, hn⟩ : ∃ n, s.rangeFuel = n + 1 := by
    refine ⟨r.last.toNat - b.toNat, ?_⟩
    have := BitVec.lt_def.mp hlt
    simp only [State.rangeFuel, hr, hb]
    omega
  have hslices (n : Nat) : skipSlices n t = t := by cases n <;> simp [skipSlices, State.normalDue, t]
  rw [State.scrubSettle, hh, hn, hblocks]
  exact hslices _

theorem State.scrubDone_ranging (hh : s.scrub.holds = true) (hcell : s.cell a = freshWord d)
    (hr : s.scrub.range = some r) : s.scrubDone a p true = (s.noteRead a).dropScrubGrant.advanceRange r a := by
  have hr' : (s.noteRead a).dropScrubGrant.scrub.range = some r := hr
  rw [State.scrubDone_clean hh hcell]
  simp only [State.scrubProgress, if_true, hr']

/-- The run at the word with cursor `z`. -/
def State.rangeAt (s : State) (a : Addr) (r : RangeRun) (z : Addr) : State :=
  { s.noteRead a with scrub := { s.scrub with holds := false, range := some { r with cursor := z } } }

/-- The word after a visited one is visited next. -/
theorem State.rangeWord_next (hh : s.scrub.holds = true) (hcell : s.cell a = freshWord d) (hr : s.scrub.range = some r)
    (hlt : a < wordAddr r.last 255) (hk : s.skipped (blockOf (a + 1)) = false) :
    (s.scrubDone a p true).scrubSettle = s.rangeAt a r (a + 1) := by
  rw [State.scrubDone_ranging hh hcell hr, State.advanceRange_next hlt]
  exact State.scrubSettle_ranging (s := s.rangeAt a r (a + 1)) rfl hk

/-- The block after a visited one is passed over. -/
theorem State.rangeWord_skips {b : Block} (hh : s.scrub.holds = true) (hcell : s.cell a = freshWord d)
    (hr : s.scrub.range = some r) (hd : s.dev.state = .ready) (hlt : a < wordAddr r.last 255)
    (ha : a + 1 = wordAddr b 0) (hb : b < r.last) (hk : s.skipped b = true) (hk' : s.skipped (b + 1) = false) :
    (s.scrubDone a p true).scrubSettle = s.rangeAt a r (wordAddr (b + 1) 0) := by
  rw [State.scrubDone_ranging hh hcell hr, State.advanceRange_next hlt]
  exact State.scrubSettle_block (s := s.rangeAt a r (a + 1)) (r := { r with cursor := a + 1 }) rfl hd rfl
    ((congrArg blockOf ha).trans (blockOf_wordAddr b 0)) hb hk hk'

theorem State.endRange_idle (h : s.cmd.running = none) :
    s.endRange = { s with scrub := { s.scrub with range := none } } := by
  simp only [State.endRange, h]

theorem State.endRange_completes {x y : Half} (h : s.cmd.running = some (.scrubRange x y)) : s.endRange = { s with
    scrub := { s.scrub with range := none }, cmd := { s.cmd with result := .ok, running := none }
    irq := { s.irq with cmdDone := true }, events := s.events.offer (commandDoneRecord s.cmd.field .ok) } := by
  simp only [State.endRange, h]
  rfl

/-- The run over after its last word, with the command engine, CMD_DONE and the events given. -/
def State.rangeOver (s : State) (a : Addr) (c : CommandEngine) (i : Irq) (e : Events) : State :=
  { s.noteRead a with
    scrub := { s.scrub with holds := false, range := none }, cmd := c, irq := i, events := e }

theorem State.rangeWord_last (hh : s.scrub.holds = true) (hcell : s.cell a = freshWord d) (hr : s.scrub.range = some r)
    (ha : a = wordAddr r.last 255) (hk : s.skipped s.scrub.block = false) {c : CommandEngine} {i : Irq} {e : Events}
    (he : (s.noteRead a).dropScrubGrant.endRange = s.rangeOver a c i e) :
    (s.scrubDone a p true).scrubSettle = s.rangeOver a c i e := by
  rw [State.scrubDone_ranging hh hcell hr]
  subst ha
  rw [State.advanceRange_last, he]
  exact State.scrubSettle_served (s := s.rangeOver _ c i e) rfl hk

/-! #### The event of the completion (R176) -/

theorem State.rangeEvent_ongoing {x y : Half} {f : State → State} (h : s.cmd.running = some (.scrubRange x y))
    (hf : (f (s.drawn.complete .ok)).scrub.range.isNone = true → f (s.drawn.complete .ok) = f s.drawn) :
    s.rangeEvent f = f s.drawn := by
  have hevent : s.rangeEvent f =
      if Config.eitherOrder s.choices && (f (s.drawn.complete .ok)).scrub.range.isNone then f (s.drawn.complete .ok)
      else f s.drawn := by
    simp only [State.rangeEvent, h]
    rfl
  rw [hevent]
  split
  · rename_i hcond
    exact hf ((Bool.and_eq_true _ _).mp hcond).2
  · rfl

theorem State.rangeVisit_ends {x y : Half} {t : State} (hs : s.port.stopped = false)
    (hcmd : s.cmd.running = some (.scrubRange x y)) (hg : s.port.grant = some (.scrub a p true))
    (ht : (s.clearGrant.drawn.scrubDone a p true).scrubSettle = t) (hport : t.port.stopped = s.port.stopped)
    (hearly : ((s.clearGrant.drawn.complete .ok).scrubDone a p true).scrubSettle.scrub.range.isNone = true →
      ((s.clearGrant.drawn.complete .ok).scrubDone a p true).scrubSettle = t) : exec .scrubWordDone s = .next t := by
  have hevent := State.rangeEvent_ongoing (s := s.clearGrant) (x := x) (y := y)
    (f := fun z => (z.completion (.scrub a p true)).scrubSettle) hcmd fun h => (hearly h).trans ht.symm
  refine congrArg Host.Outcome.next ((State.completeKind_of hg rfl).trans ?_)
  rw [State.finish, hevent]
  exact (congrArg State.fenceIfDue ht).trans (State.fenceIfDue_running (hport.trans hs))

end

/-! ### A visit of a bad word, and what it hands off (R113) -/

section
variable {s : State} {a : Addr} {p : Bool} (hs : s.port.stopped = false) (hd : s.dev.state = .ready)
  (hrun : s.rangeRuns = false) (hr : s.scrub.range = none) (hg : s.port.grant = some (.scrub a p false))
  (hh : s.scrub.holds = true) (hpass : s.scrub.passEvent = false) (hasks : s.Unasking)
include hs hd hrun hr hg hh hpass hasks

theorem State.scrubVisit_uncorrectable (hrec : (s.faults.recordOf (blockOf a)).isSome = true)
    (hunc : (decodeWord (s.cell a)).cls = .uncorrectable) : ∃ t, exec .scrubWordDone s = .next t ∧
      t.array = (if p then s.array.put (s.maOf a).toNat poisonedWord else s.array) ∧
      (s.roleOf (blockOf a) = .data → t.events = s.events.offer (s.scrubFound a p) ∧ t.map = s.map ∧ t.dir = s.dir) ∧
      (∀ k, s.roleOf (blockOf a) = .spare k .free → s.dir.state ≠ .idle →
        t.map = { s.map with spares := s.map.spares.set k .condemned } ∧ t.dir = { s.dir with pendingFlag := true } ∧
        t.events = (s.events.offer (s.scrubFound a p)).offer (condemnedRecord .scrub (s.spareBlock k) k)) := by
  obtain ⟨x, t, ht, hx, hmap, hdir, harray, hevents⟩ :=
    State.scrubVisit_around hs hrun hr hg hh hpass hasks rfl (.inl hunc)
  obtain ⟨hfound, hafter⟩ := hevents hunc hrec
  obtain ⟨arr, l, hframe⟩ := s.visited_frame a p
  generalize hv : s.visited a p = v at hx hframe
  have hrole (b : Block) : x.roleOf b = s.roleOf b := (hx.roleOf b).trans (by rw [hframe]; rfl)
  have hxmap : x.map = s.map := hx.map.trans (by rw [hframe])
  have hxdir : x.dir = s.dir := hx.dir.trans (by rw [hframe])
  have hxdev : x.dev = s.dev := hx.dev.trans (by rw [hframe])
  have hblock (k : Nat) : x.spareBlock k = s.spareBlock k := by
    rw [State.spareBlock, State.spareBlock, State.physBlocks, State.physBlocks, State.spareCount, State.spareCount, hxmap,
      hx.pCode, hframe]
  refine ⟨t, ht, harray.trans (State.scrubWritten_uncorrectable (s := s.clearGrant) hunc), fun hdata => ?_,
    fun k hspare hbusy => ?_⟩
  · have hoff := State.scrubHandOff_data (s := x) (r := decodeWord (s.cell a)) ((hrole _).trans hdata)
    rw [hoff] at hmap hdir hafter
    exact ⟨(hafter rfl).trans hfound, hmap.trans hxmap, hdir.trans hxdir⟩
  · have hoff := State.scrubHandOff_spare (s := x) (by rw [hxdev]; exact hd) ((hrole _).trans hspare) hunc
      (by rw [hxdir]; exact hbusy)
    rw [hoff] at hmap hdir hafter
    refine ⟨hmap.trans ?_, hdir.trans (by rw [hxdir]), (hafter rfl).trans ?_⟩
    · rw [State.markCondemned, State.setSpare, hxmap]
      rfl
    · show x.events.offer (condemnedRecord .scrub (x.spareBlock k) k) = _
      rw [hfound, hblock k]

theorem State.scrubVisit_copy {x : Copy}
    (hcls : (decodeWord (s.cell a)).cls = .uncorrectable ∨ (decodeWord (s.cell a)).cls = .poisoned)
    (hrole : s.roleOf (blockOf a) = .copy x) (hvalid : (s.dir.known x).valid = true) :
    ∃ t, exec .scrubWordDone s = .next t ∧ (t.dir.known x).valid = false ∧
      (s.dir.state ≠ .idle → s.dev.dirReadonly = false →
        t.dir.pendingFlag = true ∧ t.dir.state = s.dir.state ∧ t.map = s.map) ∧
      (s.dev.dirReadonly = true →
        t.dir.pendingFlag = s.dir.pendingFlag ∧ t.dir.state = s.dir.state ∧ t.map = s.map) ∧
      (s.dir.state = .idle → s.dev.dirReadonly = false → s.dir.gen ≠ 0xFFFFFFFF → t.dir.state = .writing ∧
        t.dir.target = some (if s.dir.copyA.valid = true ∧ x = .b then .b else .a)) := by
  obtain ⟨z, t, ht, hz, hmap, hdir, -, -⟩ :=
    State.scrubVisit_around hs hrun hr hg hh hpass hasks rfl hcls
  obtain ⟨arr, l, hframe⟩ := s.visited_frame a p
  generalize hv : s.visited a p = v at hz hframe
  have hzrole : z.roleOf (blockOf a) = .copy x := ((hz.roleOf _).trans (by rw [hframe]; rfl)).trans hrole
  have hzmap : z.map = s.map := hz.map.trans (by rw [hframe])
  have hzdir : z.dir = s.dir := hz.dir.trans (by rw [hframe])
  have hzdev : z.dev = s.dev := hz.dev.trans (by rw [hframe])
  have hzro : z.dev.dirReadonly = s.dev.dirReadonly := by rw [hzdev]
  rw [State.scrubHandOff_copy (by rw [hzdev]; exact hd) hzrole hcls,
    State.dirFinding_valid (by rw [hzdir]; exact hvalid), hzro] at hmap hdir
  let m : State := { z with dir := z.dir.markInvalid x }
  have hminvalid : (m.dir.known x).valid = false := z.dir.known_markInvalid x
  have hmstate : m.dir.state = s.dir.state := (z.dir.markInvalid_state x).trans (by rw [hzdir])
  refine ⟨t, ht, ?_, fun hbusy hro => ?_, fun hro => ?_, fun hidle hro hgen => ?_⟩
  · rw [hdir]
    split
    · exact hminvalid
    · exact State.requestCommit_invalid (s := m) hminvalid
  · rw [if_neg (by simp [hro]), State.requestCommit_busy (s := m) (by rw [hmstate]; exact hbusy)] at hmap hdir
    rw [hdir, hmap]
    exact ⟨rfl, hmstate, hzmap⟩
  · rw [if_pos hro] at hmap hdir
    rw [hdir, hmap]
    exact ⟨(z.dir.markInvalid_pendingFlag x).trans (by rw [hzdir]), hmstate, hzmap⟩
  · have hmgen : m.dir.gen ≠ 0xFFFFFFFF := by
      rw [show m.dir.gen = z.dir.gen from z.dir.markInvalid_gen x, hzdir]
      exact hgen
    rw [if_neg (by simp [hro]), State.requestCommit_idle (s := m) (by rw [hmstate]; exact hidle) (hzro.trans hro),
      State.startCommit_started (s := m) hmgen] at hdir
    rw [hdir]
    refine ⟨rfl, congrArg some ?_⟩
    rw [← hzdir]
    exact z.dir.chooseTarget_markInvalid x

end

/-- Settles O55: visits, credits and the words of a range run, each by the branch of the engine it takes. -/
theorem scrubVisitsAndCredits : Obligations.ScrubVisitsAndCredits := by
  refine ⟨fun s a p d hq => ⟨fun hg hh hw hcell => ?_, fun hg hh hw hcell hb => ?_, fun i hi hg hcell => ?_,
      fun b l k hg hh hw hcell hbl hk hskip => ?_⟩,
    fun s => ⟨fun ht => ?_, fun ht => ?_⟩, fun s ht hstill => ⟨fun hb => ?_, fun hb => ?_⟩,
    fun s ht hr hh hb hk hl => ?_,
    fun s a p q hs hd hrun hr hg hh hpass hauto hthreshold hrec => ⟨fun hunc => ?_, fun x hcls hrole hvalid => ?_⟩,
    fun s a p d r x y hs hd hcmd hr hg hh hcell => ⟨fun hlt hk => ?_, fun b ha hb hk hk' hlt => ?_, fun ha hk => ?_⟩⟩
  · have hdone : s.clearGrant.scrubDone a p false = _ := (State.scrubDone_clean (s := s.clearGrant) hh hcell false).trans
      (if_neg hw)
    exact State.scrubVisit_ends hq hg hdone rfl hq.2.2.2.1 hq.2.2.2.2
  · have hdone : s.clearGrant.scrubDone a p false = _ := (State.scrubDone_poisoned (s := s.clearGrant) hh hcell hb).trans
      (if_neg hw)
    exact State.scrubVisit_ends hq hg hdone rfl hq.2.2.2.1 hq.2.2.2.2
  · obtain ⟨t, ht, harray⟩ := State.scrubVisit_array hq.1 hq.2.2.1 hg
    exact ⟨t, ht, harray.trans (State.scrubWritten_corrected (s := s.clearGrant) hi hcell)⟩
  · refine (State.scrubVisit_ends hq hg (State.scrubDone_slice (s := s.clearGrant) hh hcell hw hbl.symm) rfl hq.2.2.2.1
      hskip).trans ?_
    subst hk
    simp only [State.passEnds_iff]
    rfl
  · exact congrArg Host.Outcome.next (if_neg (by simp [ht]))
  · exact ⟨_, exec_scrubTimerExpiry ht, s.timerExpires_ticks, (OnlyEngines.timerExpires s).array⟩
  · exact (exec_scrubTimerExpiry ht).trans (congrArg Host.Outcome.next (State.timerExpires_room hstill hb))
  · exact (exec_scrubTimerExpiry ht).trans (congrArg Host.Outcome.next (State.timerExpires_full hstill hb))
  · exact (exec_scrubTimerExpiry ht).trans (congrArg Host.Outcome.next (State.timerExpires_skips ht hr hh hb hk hl))
  · exact State.scrubVisit_uncorrectable hs hd hrun hr hg hh hpass ⟨hthreshold, hauto⟩ (by rw [hrec]; rfl) hunc
  · exact State.scrubVisit_copy hs hd hrun hr hg hh hpass ⟨hthreshold, hauto⟩ hcls hrole hvalid
  · have next (z : State) (hz : z.cell a = freshWord d) (hzs : z.scrub = s.scrub)
        (hzk : z.skipped (blockOf (a + 1)) = false) :=
      State.rangeWord_next (p := p) (s := z) (hzs ▸ hh) hz (hzs ▸ hr) hlt hzk
    refine State.rangeVisit_ends hs hcmd hg (next s.clearGrant.drawn hcell rfl hk) rfl fun hearly => ?_
    rw [next (s.clearGrant.drawn.complete .ok) hcell rfl hk] at hearly
    cases hearly
  · have next (z : State) (hz : z.cell a = freshWord d) (hzs : z.scrub = s.scrub) (hzd : z.dev = s.dev)
        (hzk : z.skipped b = true) (hzk' : z.skipped (b + 1) = false) :=
      State.rangeWord_skips (p := p) (s := z) (hzs ▸ hh) hz (hzs ▸ hr) (hzd ▸ hd) hlt ha hb hzk hzk'
    refine State.rangeVisit_ends hs hcmd hg (next s.clearGrant.drawn hcell rfl rfl hk hk') rfl fun hearly => ?_
    rw [next (s.clearGrant.drawn.complete .ok) hcell rfl rfl hk hk'] at hearly
    cases hearly
  · have hlate := State.rangeWord_last (p := p) (s := s.clearGrant.drawn) hh hcell hr ha hk
      (State.endRange_completes (s := (s.clearGrant.drawn.noteRead a).dropScrubGrant) hcmd)
    have hearly := State.rangeWord_last (p := p) (s := s.clearGrant.drawn.complete .ok) hh hcell hr ha hk
      (State.endRange_idle (s := ((s.clearGrant.drawn.complete .ok).noteRead a).dropScrubGrant) rfl)
    exact State.rangeVisit_ends hs hcmd hg hlate rfl fun _ => hearly

end Sys2Proof.Machine
